-- ==== Sys2Proof/Word.lean ====
section
/-! DEFINITION. The widths of the CHIP-8 CPU core (spec/00_scope.md R4, spec/30_encoding.md R71): the plain bit-vector
types that registers, addresses, instruction words and encoded fields have. All values are unsigned (R6). -/

namespace Sys2Proof

/-- A general register, a timer, an immediate or a memory byte: 8 bits (R4 `XLEN`, `TLEN`). -/
abbrev Byte := BitVec 8

/-- `I`, `pc`, a stack entry, a key mask or an instruction word: 16 bits (R4 `ILEN`, `PCLEN`). -/
abbrev Word := BitVec 16

/-- A register index or the `n` field: 4 bits (R71). -/
abbrev Nibble := BitVec 4

/-- The `nnn` field: 12 bits (R71). -/
abbrev Addr12 := BitVec 12

end Sys2Proof
end

