-- ==== Sys2Proof/Machine/Flags.lean ====
section
/-! DEFINITION. Every flag computation of the instruction set (spec/10_state.md R21, spec/43_load_alu.md R136 to R142).
The collision flag of DRW comes out of `Grid.draw` (spec/45_display.md R161). -/

namespace Sys2Proof.Machine

/-- ADD: carry = 1 when the true sum exceeds 255 (R136, R142). -/
def carryFlag (a b : Byte) : Bool := decide (a.toNat + b.toNat > 255)

/-- SUB and SUBN: 1 when the minuend is strictly greater than the subtrahend, so equal operands give 0
(R137, R139, C3, D8; log 13). -/
def greaterFlag (minuend subtrahend : Byte) : Bool := decide (minuend.toNat > subtrahend.toNat)

/-- SHR: the bit shifted out, old bit 0 (R138). -/
def shrFlag (a : Byte) : Bool := a.getLsbD 0

/-- SHL: the bit shifted out, old bit 7 (R140). -/
def shlFlag (a : Byte) : Bool := a.getLsbD 7

end Sys2Proof.Machine
end

