-- ==== Sys2Proof/Syntax.lean ====
section
/-! DEFINITION. The instruction set: one constructor per row of spec/opcode_table.json, in the order of rule R74
(spec/30_encoding.md). A constructor carries every field its word has, the ignored ones too (R77: "The decoder still
delivers every field"): `nnn` of SYS, `y` of SHR and SHL. -/

namespace Sys2Proof

/-- A decoded instruction: "a discriminated operation kind plus decoded fields" (R71). -/
inductive Instr where
  /-- 00E0, `CLS` (R162). -/
  | cls
  /-- 00EE, `RET` (R111). -/
  | ret
  /-- 0nnn, `SYS nnn` (R110). -/
  | sys (nnn : Addr12)
  /-- 1nnn, `JP nnn` (R112). -/
  | jp (nnn : Addr12)
  /-- 2nnn, `CALL nnn` (R113). -/
  | call (nnn : Addr12)
  /-- 3xkk, `SE Vx, kk` (R120). -/
  | seImm (x : Nibble) (kk : Byte)
  /-- 4xkk, `SNE Vx, kk` (R121). -/
  | sneImm (x : Nibble) (kk : Byte)
  /-- 5xy0, `SE Vx, Vy` (R122). -/
  | seReg (x y : Nibble)
  /-- 6xkk, `LD Vx, kk` (R130). -/
  | ldImm (x : Nibble) (kk : Byte)
  /-- 7xkk, `ADD Vx, kk` (R131). -/
  | addImm (x : Nibble) (kk : Byte)
  /-- 8xy0, `LD Vx, Vy` (R132). -/
  | ldReg (x y : Nibble)
  /-- 8xy1, `OR Vx, Vy` (R133). -/
  | orReg (x y : Nibble)
  /-- 8xy2, `AND Vx, Vy` (R134). -/
  | andReg (x y : Nibble)
  /-- 8xy3, `XOR Vx, Vy` (R135). -/
  | xorReg (x y : Nibble)
  /-- 8xy4, `ADD Vx, Vy` (R136). -/
  | addReg (x y : Nibble)
  /-- 8xy5, `SUB Vx, Vy` (R137). -/
  | sub (x y : Nibble)
  /-- 8xy6, `SHR Vx`, `y` ignored (R138, R77). -/
  | shr (x y : Nibble)
  /-- 8xy7, `SUBN Vx, Vy` (R139). -/
  | subn (x y : Nibble)
  /-- 8xyE, `SHL Vx`, `y` ignored (R140, R77). -/
  | shl (x y : Nibble)
  /-- 9xy0, `SNE Vx, Vy` (R123). -/
  | sneReg (x y : Nibble)
  /-- Annn, `LD I, nnn` (R150). -/
  | ldI (nnn : Addr12)
  /-- Bnnn, `JP V0, nnn` (R114). -/
  | jpV0 (nnn : Addr12)
  /-- Cxkk, `RND Vx, kk` (R141). -/
  | rnd (x : Nibble) (kk : Byte)
  /-- Dxyn, `DRW Vx, Vy, n` (R163). -/
  | drw (x y n : Nibble)
  /-- Ex9E, `SKP Vx` (R124). -/
  | skp (x : Nibble)
  /-- ExA1, `SKNP Vx` (R125). -/
  | sknp (x : Nibble)
  /-- Fx07, `LD Vx, DT` (R170). -/
  | ldVxDT (x : Nibble)
  /-- Fx0A, `LD Vx, K` (R171). -/
  | ldVxK (x : Nibble)
  /-- Fx15, `LD DT, Vx` (R172). -/
  | ldDTVx (x : Nibble)
  /-- Fx18, `LD ST, Vx` (R173). -/
  | ldSTVx (x : Nibble)
  /-- Fx1E, `ADD I, Vx` (R151). -/
  | addI (x : Nibble)
  /-- Fx29, `LD F, Vx` (R152). -/
  | ldF (x : Nibble)
  /-- Fx33, `LD B, Vx` (R153). -/
  | ldB (x : Nibble)
  /-- Fx55, `LD [I], Vx` (R154). -/
  | ldMemVx (x : Nibble)
  /-- Fx65, `LD Vx, [I]` (R155). -/
  | ldVxMem (x : Nibble)
  deriving DecidableEq, Repr

end Sys2Proof
end

