-- ==== Sys2Proof/Decode.lean ====
section
/-! DEFINITION. The instruction decoder and its inverse (spec/30_encoding.md R70 to R78): "pure function from a 16-bit
word to a tagged operation + operand fields. No state, no side effects." -/

namespace Sys2Proof

/-- What a decode failure carries: "the offending word, top nibble, and low nibble" (R75, R181). -/
structure DecodeError where
  word : Word
  top : Nibble
  low : Nibble
  deriving DecidableEq, Repr

/-- Why a byte sequence is not an instruction. -/
inductive DecodeReject where
  /-- Fewer than the two bytes every instruction has (R70). -/
  | truncated
  /-- One of the illegal words of R75. -/
  | illegal (e : DecodeError)
  deriving DecidableEq, Repr

/-- `top = w[15:12]` (R71). -/
def fieldTop (w : Word) : Nibble := w.extractLsb' 12 4
/-- `x = w[11:8]` (R71). -/
def fieldX (w : Word) : Nibble := w.extractLsb' 8 4
/-- `y = w[7:4]` (R71). -/
def fieldY (w : Word) : Nibble := w.extractLsb' 4 4
/-- `n = w[3:0]` (R71). -/
def fieldN (w : Word) : Nibble := w.extractLsb' 0 4
/-- `kk = w[7:0]` (R71). -/
def fieldKk (w : Word) : Byte := w.extractLsb' 0 8
/-- `nnn = w[11:0]` (R71). -/
def fieldNnn (w : Word) : Addr12 := w.extractLsb' 0 12

/-- The failure report of an illegal word (R75). -/
def decodeErrorOf (w : Word) : DecodeError := { word := w, top := fieldTop w, low := fieldN w }

/-- Group 0x0 (R74 rows 1 to 3, R76): the two fixed words, every other word is SYS. -/
def decodeGroup0 (w : Word) : Instr :=
  if w = 0x00E0#16 then .cls else if w = 0x00EE#16 then .ret else .sys (fieldNnn w)

/-- Group 0x8 (R74 rows 11 to 19), told apart by the low nibble. -/
def decodeGroup8 (w : Word) : Except DecodeError Instr :=
  match (fieldN w).toNat with
  | 0x0 => .ok (.ldReg (fieldX w) (fieldY w))
  | 0x1 => .ok (.orReg (fieldX w) (fieldY w))
  | 0x2 => .ok (.andReg (fieldX w) (fieldY w))
  | 0x3 => .ok (.xorReg (fieldX w) (fieldY w))
  | 0x4 => .ok (.addReg (fieldX w) (fieldY w))
  | 0x5 => .ok (.sub (fieldX w) (fieldY w))
  | 0x6 => .ok (.shr (fieldX w) (fieldY w))
  | 0x7 => .ok (.subn (fieldX w) (fieldY w))
  | 0xE => .ok (.shl (fieldX w) (fieldY w))
  | _ => .error (decodeErrorOf w)

/-- Group 0xE (R74 rows 25 and 26), told apart by the low byte. -/
def decodeGroupE (w : Word) : Except DecodeError Instr :=
  match (fieldKk w).toNat with
  | 0x9E => .ok (.skp (fieldX w))
  | 0xA1 => .ok (.sknp (fieldX w))
  | _ => .error (decodeErrorOf w)

/-- Group 0xF (R74 rows 27 to 35), told apart by the low byte. -/
def decodeGroupF (w : Word) : Except DecodeError Instr :=
  match (fieldKk w).toNat with
  | 0x07 => .ok (.ldVxDT (fieldX w))
  | 0x0A => .ok (.ldVxK (fieldX w))
  | 0x15 => .ok (.ldDTVx (fieldX w))
  | 0x18 => .ok (.ldSTVx (fieldX w))
  | 0x1E => .ok (.addI (fieldX w))
  | 0x29 => .ok (.ldF (fieldX w))
  | 0x33 => .ok (.ldB (fieldX w))
  | 0x55 => .ok (.ldMemVx (fieldX w))
  | 0x65 => .ok (.ldVxMem (fieldX w))
  | _ => .error (decodeErrorOf w)

/-- `decode(word: u16) -> Instruction | DecodeError` (R73): "inspect the top nibble first to select a major group, then
disambiguate within the group using either the bottom nibble or the bottom byte". The last arm is never taken: the top
nibble is below 16. -/
def decodeWord (w : Word) : Except DecodeError Instr :=
  match (fieldTop w).toNat with
  | 0x0 => .ok (decodeGroup0 w)
  | 0x1 => .ok (.jp (fieldNnn w))
  | 0x2 => .ok (.call (fieldNnn w))
  | 0x3 => .ok (.seImm (fieldX w) (fieldKk w))
  | 0x4 => .ok (.sneImm (fieldX w) (fieldKk w))
  | 0x5 => if fieldN w = 0x0#4 then .ok (.seReg (fieldX w) (fieldY w)) else .error (decodeErrorOf w)
  | 0x6 => .ok (.ldImm (fieldX w) (fieldKk w))
  | 0x7 => .ok (.addImm (fieldX w) (fieldKk w))
  | 0x8 => decodeGroup8 w
  | 0x9 => if fieldN w = 0x0#4 then .ok (.sneReg (fieldX w) (fieldY w)) else .error (decodeErrorOf w)
  | 0xA => .ok (.ldI (fieldNnn w))
  | 0xB => .ok (.jpV0 (fieldNnn w))
  | 0xC => .ok (.rnd (fieldX w) (fieldKk w))
  | 0xD => .ok (.drw (fieldX w) (fieldY w) (fieldN w))
  | 0xE => decodeGroupE w
  | 0xF => decodeGroupF w
  | _ => .error (decodeErrorOf w)

/-- The word of two fetched bytes, "most-significant byte first" (R53, R70): `w[15:8] = hi`, `w[7:0] = lo`. -/
def wordOfBytes (hi lo : Byte) : Word := hi ++ lo

/-- The byte of a word at the lower address (R53). -/
def highByte (w : Word) : Byte := w.extractLsb' 8 8

/-- The byte of a word at the higher address (R53). -/
def lowByte (w : Word) : Byte := w.extractLsb' 0 8

/-- The decoder on bytes as memory holds them, total, with the bytes it did not use. -/
def decodeBytes : List Byte → Except DecodeReject (Instr × List Byte)
  | hi :: lo :: rest =>
    match decodeWord (wordOfBytes hi lo) with
    | .ok i => .ok (i, rest)
    | .error e => .error (.illegal e)
  | _ => .error .truncated

/-- The instruction the decoder reads from a word numbered as spec/opcode_table.json numbers it: the two bytes are laid
out high byte first (R53) and given to `decodeBytes`. -/
def decodeTableWord (nbits w : Nat) : Option Instr :=
  let v : Word := BitVec.ofNat 16 (w % 2 ^ nbits)
  match decodeBytes [highByte v, lowByte v] with
  | .ok (i, _) => some i
  | .error _ => none

/-- Formats NNN, XKK, XY (and XYN), X of rule R72, most significant field first. -/
def formNnn (top : Nibble) (nnn : Addr12) : Word := top ++ nnn
/-- Format XKK (R72). -/
def formXkk (top x : Nibble) (kk : Byte) : Word := (top ++ x : Byte) ++ kk
/-- Formats XY and XYN (R72). -/
def formXyn (top x y n : Nibble) : Word := (top ++ x : Byte) ++ (y ++ n : Byte)

/-- The word of an instruction (R74); `decodeWord` reads it back for every well-formed one. -/
def encode : Instr → Word
  | .cls => 0x00E0#16
  | .ret => 0x00EE#16
  | .sys nnn => formNnn 0x0#4 nnn
  | .jp nnn => formNnn 0x1#4 nnn
  | .call nnn => formNnn 0x2#4 nnn
  | .seImm x kk => formXkk 0x3#4 x kk
  | .sneImm x kk => formXkk 0x4#4 x kk
  | .seReg x y => formXyn 0x5#4 x y 0x0#4
  | .ldImm x kk => formXkk 0x6#4 x kk
  | .addImm x kk => formXkk 0x7#4 x kk
  | .ldReg x y => formXyn 0x8#4 x y 0x0#4
  | .orReg x y => formXyn 0x8#4 x y 0x1#4
  | .andReg x y => formXyn 0x8#4 x y 0x2#4
  | .xorReg x y => formXyn 0x8#4 x y 0x3#4
  | .addReg x y => formXyn 0x8#4 x y 0x4#4
  | .sub x y => formXyn 0x8#4 x y 0x5#4
  | .shr x y => formXyn 0x8#4 x y 0x6#4
  | .subn x y => formXyn 0x8#4 x y 0x7#4
  | .shl x y => formXyn 0x8#4 x y 0xE#4
  | .sneReg x y => formXyn 0x9#4 x y 0x0#4
  | .ldI nnn => formNnn 0xA#4 nnn
  | .jpV0 nnn => formNnn 0xB#4 nnn
  | .rnd x kk => formXkk 0xC#4 x kk
  | .drw x y n => formXyn 0xD#4 x y n
  | .skp x => formXkk 0xE#4 x 0x9E#8
  | .sknp x => formXkk 0xE#4 x 0xA1#8
  | .ldVxDT x => formXkk 0xF#4 x 0x07#8
  | .ldVxK x => formXkk 0xF#4 x 0x0A#8
  | .ldDTVx x => formXkk 0xF#4 x 0x15#8
  | .ldSTVx x => formXkk 0xF#4 x 0x18#8
  | .addI x => formXkk 0xF#4 x 0x1E#8
  | .ldF x => formXkk 0xF#4 x 0x29#8
  | .ldB x => formXkk 0xF#4 x 0x33#8
  | .ldMemVx x => formXkk 0xF#4 x 0x55#8
  | .ldVxMem x => formXkk 0xF#4 x 0x65#8

/-- The two bytes of an instruction in memory order (R53, R70). -/
def encodeBytes (i : Instr) : List Byte := [highByte (encode i), lowByte (encode i)]

end Sys2Proof
end

