-- ==== Sys2Proof/Config.lean ====
section
/-! DEFINITION. What an implementation of the core fixes (spec/00_scope.md R4, the parameters of kind "argument") and the
model's free values. A `Config` is carried unchanged in the state, so a statement about every state is a statement about
every parameter value. -/

namespace Sys2Proof

/-- The arguments of the model (R4). `Config.wf` gives their ranges. -/
structure Config where
  /-- `WIDTH`, display columns (R4, R166). -/
  width : Nat
  /-- `HEIGHT`, display rows (R4, R166). -/
  height : Nat
  /-- `TIMER_DIV`, ticks per timer decrement (R4, R92). -/
  timerDiv : Nat
  /-- `FONT_BASE`, address of the glyph of digit 0 (R4, R152). -/
  fontBase : Nat
  deriving DecidableEq, Repr

/-- The ranges R4 gives the arguments: each size at least 1, `0 <= FONT_BASE <= 432`. -/
def Config.wf (c : Config) : Bool :=
  decide (1 ≤ c.width) && decide (1 ≤ c.height) && decide (1 ≤ c.timerDiv) && decide (c.fontBase ≤ 432)

/-- FREE VALUE (R141, R4 `rnd`; DESIGN CHOICE of form, log 3): the random byte of the `k`-th execution of RND.
"a free 8-bit input per execution", "under no law": no body, so nothing can be proved of its value. -/
opaque Config.randomByte : Nat → Byte

/-- FREE VALUE (R4 `font_addr`, R152; DESIGN CHOICE, log 4): the address LD F forms for a register value above 15 on a
machine with these parameters. R4 leaves `font_addr` "unconstrained above"; no body. -/
opaque Config.fontAddrBeyond : Config → Byte → Word

end Sys2Proof
end

