-- ==== Sys2Proof/Machine/Params.lean ====
section
/-! DEFINITION. The fixed sizes of the machine and the values a reset takes for its arguments (spec/00_scope.md R4,
spec/70_reset_and_hazards.md R210, R212). -/

namespace Sys2Proof.Machine

/-- `MEM_SIZE`: bytes of memory (R4, R27). -/
def memSize : Nat := 4096

/-- `PROG_BASE`: the load address of the program and the reset value of `pc` (R4, R23). -/
def progBase : Nat := 512

/-- The longest ROM that fits: 4096 − 512 bytes (R221). -/
def romMax : Nat := 3584

/-- `STACK_DEPTH`: entries of the return stack (R4, R24). -/
def stackDepth : Nat := 16

/-- `GLYPH_BYTES`: bytes of one glyph (R4, D4). -/
def glyphBytes : Nat := 5

/-- The arguments at their defaults: 64 × 32, `TIMER_DIV` = 9, and the suggested default 0 of the OPEN `FONT_BASE`
(R4; DESIGN CHOICE, log 5). -/
def defaultConfig : Config := { width := 64, height := 32, timerDiv := 9, fontBase := 0 }

/-- The conventional glyph table, 16 glyphs of 5 bytes in digit order (spec/93_implementation_defined.md G3;
PRESUMED, log 8): what the host supplies at the model's reset. `load` takes any other table. -/
def glyphTable : List Byte :=
  [0xF0, 0x90, 0x90, 0x90, 0xF0,  0x20, 0x60, 0x20, 0x20, 0x70,
   0xF0, 0x10, 0xF0, 0x80, 0xF0,  0xF0, 0x10, 0xF0, 0x10, 0xF0] ++
  [0x90, 0x90, 0xF0, 0x10, 0x10,  0xF0, 0x80, 0xF0, 0x10, 0xF0,
   0xF0, 0x80, 0xF0, 0x90, 0xF0,  0xF0, 0x10, 0x20, 0x40, 0x40] ++
  [0xF0, 0x90, 0xF0, 0x90, 0xF0,  0xF0, 0x90, 0xF0, 0x10, 0xF0,
   0xF0, 0x90, 0xF0, 0x90, 0x90,  0xE0, 0x90, 0xE0, 0x90, 0xE0] ++
  [0xF0, 0x80, 0x80, 0x80, 0xF0,  0xE0, 0x90, 0x90, 0x90, 0xE0,
   0xF0, 0x80, 0xF0, 0x80, 0xF0,  0xF0, 0x80, 0xF0, 0x80, 0x80]

/-- The same table as the 80 bytes the host hands to `load` (R212). -/
def conventionalGlyphs : Vector Byte 80 := ⟨glyphTable.toArray, rfl⟩

/-- What a byte of memory that nothing has written reads as: the reset contents of the machine with the default
arguments and a ROM of length 0 (R37, R210): the glyph table at `FONT_BASE`, every other byte 0
(D4; DESIGN CHOICE and PRESUMED, log 8). -/
def resetByte (a : Nat) : Byte :=
  if defaultConfig.fontBase ≤ a then glyphTable.getD (a - defaultConfig.fontBase) 0 else 0

end Sys2Proof.Machine
end

