-- ==== Sys2Proof/Machine/Memory.lean ====
section
/-! DEFINITION. The byte memory (spec/10_state.md R27, spec/20_memory.md R50 to R53): a list of cells in one canonical
form. These operations do not check bounds; `Machine/Ops.lean` checks a whole range before it uses them (R56). -/

namespace Sys2Proof.Machine

/-- `mem`: the bytes that differ from what an unlisted address reads as. -/
abbrev Mem := List Host.Cell

/-- `mem[a]` (R52): the listed byte, else what an unlisted address reads as (`resetByte`). -/
def Memory.read : Mem → Nat → Byte
  | [], a => resetByte a
  | (k, b) :: m, a => if k = a then b else Memory.read m a

/-- `mem[a] <- v` (R52), keeping the canonical form: a byte equal to the unlisted value is removed from the list. -/
def Memory.write : Mem → Nat → Byte → Mem
  | [], a, v => if v = resetByte a then [] else [(a, v)]
  | (k, b) :: m, a, v =>
    if a < k then
      if v = resetByte a then (k, b) :: m else (a, v) :: (k, b) :: m
    else if a = k then
      if v = resetByte a then m else (a, v) :: m
    else (k, b) :: Memory.write m a v

/-- Every listed address is above `lo`, rising. -/
def Memory.risesFrom : Nat → Mem → Bool
  | _, [] => true
  | lo, (k, _) :: m => decide (lo ≤ k) && Memory.risesFrom (k + 1) m

/-- The canonical form: addresses strictly rising, each below `memSize`, no byte equal to the unlisted one. -/
def Memory.wf (m : Mem) : Bool :=
  Memory.risesFrom 0 m && m.all fun c => decide (c.1 < memSize) && c.2 != resetByte c.1

/-- Successive bytes at successive ascending addresses, written (R53). -/
def Memory.storeBytes : Mem → Nat → List Byte → Mem
  | m, _, [] => m
  | m, a, b :: bs => Memory.storeBytes (Memory.write m a b) (a + 1) bs

/-- The `len` bytes at `a`, `a+1`, ..., read in ascending order (R53, R56). -/
def Memory.loadBytes (m : Mem) (a len : Nat) : List Byte :=
  (List.range len).map fun k => Memory.read m (a + k)

end Sys2Proof.Machine
end

