-- ==== Sys2Proof/Machine/Surface.lean ====
section
/-! DEFINITION. The display surface (spec/45_display.md R160, R161, R166; spec/10_state.md R28): a grid of Booleans, its
clear and its XOR draw with collision. No state of the core but the grid is in here. -/

namespace Sys2Proof.Machine

/-- `px`: a list of rows from the top, each a list of pixels from the left (R28, D24). -/
abbrev Grid := List (List Bool)

/-- A grid of `h` rows of `w` cells, every cell false (R160; R28 for the reset value). -/
def Grid.blank (w h : Nat) : Grid := List.replicate h (List.replicate w false)

/-- `px[y][x]`; false where the grid has no such cell. -/
def Grid.get (g : Grid) (x y : Nat) : Bool := (g.getD y []).getD x false

/-- `px[y][x] <- not px[y][x]`. -/
def Grid.flip (g : Grid) (x y : Nat) : Grid := g.modify y fun row => row.modify x not

/-- `clear()`: "Clear sets every pixel false unconditionally." (R160) -/
def Grid.clear (g : Grid) : Grid := g.map fun row => row.map fun _ => false

/-- The grid is `h` rows of `w` cells (R28). -/
def Grid.shaped (g : Grid) (w h : Nat) : Bool := g.length == h && g.all fun row => row.length == w

/-- One sprite bit that is 1, at its wrapped target cell (R161): the collision so far, or a set-to-unset transition, and
the pixel inverted. -/
def drawPixel (cx cy : Nat) (acc : Grid × Bool) : Grid × Bool :=
  (Grid.flip acc.1 cx cy, acc.2 || Grid.get acc.1 cx cy)

/-- Row `i` of the sprite: for `j` = 0 to 7, leftmost pixel (bit 7) first (R161). -/
def drawRow (w h x0 y0 i : Nat) (row : Byte) (acc : Grid × Bool) : Grid × Bool :=
  (List.range 8).foldl
    (fun a j => if row.getLsbD (7 - j) then drawPixel ((x0 + j) % w) ((y0 + i) % h) a else a) acc

/-- The rows from row number `i` on, top row first (R161). -/
def drawRows (w h x0 y0 : Nat) : Nat → List Byte → Grid × Bool → Grid × Bool
  | _, [], acc => acc
  | i, row :: rows, acc => drawRows w h x0 y0 (i + 1) rows (drawRow w h x0 y0 i row acc)

/-- `draw(x0, y0, rows) -> collided` (R161): the grid after it, and `collided`. -/
def Grid.draw (g : Grid) (w h x0 y0 : Nat) (rows : List Byte) : Grid × Bool :=
  drawRows w h x0 y0 0 rows (g, false)

end Sys2Proof.Machine
end

