-- ==== Sys2Proof/Machine/State.lean ====
section
/-! DEFINITION. The state of the core as plain data (spec/10_state.md R20 to R37), its reset value, and the reasons a
step can stop. INVENTORY.md lists each field with its rule and reset value. -/

namespace Sys2Proof.Machine

/-- `run`, the run state of the engine (R33). -/
inductive RunState where
  | running
  | waitKey
  | halted
  | stopped
  deriving DecidableEq, Repr

/-- The four fatal conditions (R180), as the report names them. -/
inductive FatalKind where
  | outOfBoundsMemoryAccess
  | decodeError
  | stackOverflow
  | stackUnderflow
  deriving DecidableEq, Repr

/-- The failure report (R34): which condition, the word when one was fetched, the address of the faulting instruction,
the word's two nibbles for DecodeError, the first out-of-range address for OutOfBoundsMemoryAccess. -/
structure FaultReport where
  kind : FatalKind
  word : Option Word
  pc : Word
  top : Option Nibble
  low : Option Nibble
  addr : Option Nat
  deriving DecidableEq, Repr

/-- A key event of the host (R8, R91). -/
inductive KeyEvent where
  | press (k : Fin 16)
  | release (k : Fin 16)
  deriving DecidableEq, Repr

/-- What the host hands the core for one tick event (R101): the key events since the tick before, oldest first, and the
stop request sampled at the start of the tick. -/
structure HostInput where
  events : List KeyEvent
  stopReq : Bool
  deriving DecidableEq, Repr

/-- The whole state. The last three fields are the model's own (log 2, 3, 9). -/
structure State where
  /-- `V0`..`VF` (R20); `VF` is entry 15 (R21). -/
  regs : Vector Byte 16
  /-- `I` (R22). -/
  iReg : Word
  /-- `pc` (R23). -/
  pc : Word
  /-- `SP`, the number of stack entries in use, 0..16 (R24). -/
  sp : Fin 17
  /-- `stack[0..15]` (R24). -/
  stack : Vector Word 16
  /-- `DT` (R25). -/
  dt : Byte
  /-- `ST` (R26). -/
  st : Byte
  /-- `mem` (R27). -/
  mem : Mem
  /-- `px` (R28). -/
  px : Grid
  /-- `keys_held` (R29). -/
  keysHeld : Word
  /-- `keys_new` (R30). -/
  keysNew : Word
  /-- `buf_press` (R31). -/
  bufPress : Word
  /-- `buf_release` (R31). -/
  bufRelease : Word
  /-- `tick_ctr` (R32). -/
  tickCtr : Nat
  /-- `run` (R33). -/
  run : RunState
  /-- `fault` (R34). -/
  fault : Option FaultReport
  /-- The machine's arguments (R4); no step changes them. -/
  cfg : Config
  /-- MODEL'S OWN: how many RND have executed; picks the free random byte (R141, log 3). -/
  randomCtr : Nat
  /-- MODEL'S OWN: the host's inputs of the coming tick events, next first; an empty list is no event (R101, log 2). -/
  hostInputs : List HostInput
  /-- MODEL'S OWN: the output event list of frames pushed, newest first (R165, log 9). -/
  frames : List Grid
  deriving DecidableEq, Repr

/-- Why a step faults. A fatal condition of R180 is no such fault: it is taken as a next state (R186, log 1). -/
inductive Fault where
  /-- Raised by a wait poll that must read the waiting instruction's `x` field at a `pc` above 4095, where memory has no
  byte (R100, R52). No run reaches it. SAFE: the model stops (log 29). -/
  | pollOutsideMemory (addr : Nat)
  deriving DecidableEq, Repr

/-- Why the model gives no meaning. -/
inductive Refusal where
  /-- Raised by `exec`'s arm of an instruction without a meaning yet; no arm does. SAFE. -/
  | notModelled (mnemonic : String)
  /-- Raised by `load` for a ROM longer than 3584 bytes: "load is refused" (R221, D5). SAFE (log 28). -/
  | romTooLong (length : Nat)
  deriving DecidableEq, Repr

/-- The state after a reset with arguments `c`, but for memory, which `load` fills (R37). -/
def State.resetWith (c : Config) : State where
  regs := Vector.replicate 16 0
  iReg := 0
  pc := BitVec.ofNat 16 progBase
  sp := 0
  stack := Vector.replicate 16 0
  dt := 0
  st := 0
  mem := []
  px := Grid.blank c.width c.height
  keysHeld := 0
  keysNew := 0
  bufPress := 0
  bufRelease := 0
  tickCtr := 0
  run := .running
  fault := none
  cfg := c
  randomCtr := 0
  hostInputs := []
  frames := []

/-- The machine right after reset (R37): the default arguments, the host's glyph table in place, a ROM of length 0. -/
def State.reset : State := State.resetWith defaultConfig

end Sys2Proof.Machine
end

