-- ==== Sys2Proof/Machine/Ops.lean ====
section
/-! DEFINITION. The named operations every instruction is written with: registers, `pc`, the stack, memory, the display,
and ONE operation for raising a fatal condition (spec/00_scope.md R7, spec/40_step_cycle.md R96 to R98, R105, R106,
spec/60_exceptions.md R180 to R187). -/

namespace Sys2Proof.Machine

/-- A step's or an instruction's answer. -/
abbrev Result := Host.Outcome State Fault Refusal

/-! Registers -/

/-- `V[x]` (R7, R20). -/
def State.v (s : State) (x : Nibble) : Byte := s.regs.get x.toFin

/-- `V[x] <- b` (R7, R20). -/
def State.setV (s : State) (x : Nibble) (b : Byte) : State := { s with regs := s.regs.set x.toNat b x.isLt }

/-- The index of `VF`, the flag register (R20, R21). -/
def vfIndex : Nibble := 15#4

/-- `VF <- 1 if flag else 0`, the last register write of a flag-writing instruction (R21, R105). -/
def State.setFlag (s : State) (flag : Bool) : State := s.setV vfIndex (if flag then 1 else 0)

/-- `I <- a` (R22). -/
def State.setI (s : State) (a : Word) : State := { s with iReg := a }

/-- `DT <- b` (R25). -/
def State.setDt (s : State) (b : Byte) : State := { s with dt := b }

/-- `ST <- b` (R26). -/
def State.setSt (s : State) (b : Byte) : State := { s with st := b }

/-! The program counter -/

/-- `pc <- target` (R7, R96). -/
def State.setPc (s : State) (a : Word) : State := { s with pc := a }

/-- `advance`: `pc <- pc + 2` (R97). -/
def State.advance (s : State) : State := s.setPc (s.pc + 2)

/-- `skip`: `pc <- pc + 4` (R98). -/
def State.skip (s : State) : State := s.setPc (s.pc + 4)

/-- `if c then skip else advance` (spec/42_skips.md). -/
def State.skipIf (s : State) (c : Bool) : State := if c then s.skip else s.advance

/-! The return stack -/

/-- `stack[SP] <- a; SP <- SP + 1` (R113), for `SP` below 16. -/
def State.push (s : State) (a : Word) : State :=
  { s with stack := s.stack.setIfInBounds s.sp.val a, sp := s.sp + 1 }

/-- The entry a RET pops, `stack[SP-1]` (R24, R111), for `SP` above 0. -/
def State.top (s : State) : Word := s.stack.getD (s.sp.val - 1) 0

/-- `SP <- SP - 1`; the popped entry keeps its value (R111). -/
def State.drop (s : State) : State := { s with sp := s.sp - 1 }

/-! Memory -/

/-- `mem[a]` (R27). -/
def State.byte (s : State) (a : Nat) : Byte := Memory.read s.mem a

/-- Successive bytes stored from `a` on (R53). -/
def State.store (s : State) (a : Nat) (bs : List Byte) : State := { s with mem := Memory.storeBytes s.mem a bs }

/-- `for k = 0 to x: V[k] <- MemRead(a + k, 1)` (R155): the registers above `V[x]` keep their values. -/
def State.loadRegs (s : State) (x : Nibble) (a : Nat) : State :=
  { s with regs := Vector.ofFn fun k => if k.val ≤ x.toNat then s.byte (a + k.val) else s.regs[k] }

/-- The registers `V[0]..V[x]` in order (R154). -/
def State.regsUpTo (s : State) (x : Nibble) : List Byte := s.regs.toList.take (x.toNat + 1)

/-- The range check of R56 and R57: the first address above 4095 in ascending order of the `len` bytes at `base`, if
there is one. The address sum is over the integers, with no wrap (R52, D9; log 16). -/
def outOfRange (base len : Nat) : Option Nat :=
  if len = 0 ∨ base + len ≤ memSize then none else some (max base memSize)

/-! The display -/

/-- `px <- g` (R28). -/
def State.setPx (s : State) (g : Grid) : State := { s with px := g }

/-- `push_frame`: the whole grid as it is now becomes the newest output frame (R165, log 9). -/
def State.pushFrame (s : State) : State := { s with frames := s.px :: s.frames }

/-! Run state and fatal conditions -/

/-- `run <- r` (R33). -/
def State.setRun (s : State) (r : RunState) : State := { s with run := r }

/-- A fatal condition with what it carries (R180). -/
inductive Fatal where
  /-- `OutOfBoundsMemoryAccess(addr)` (R184). -/
  | outOfBounds (addr : Nat)
  /-- `DecodeError(word, top, low)` (R181). -/
  | decode (e : DecodeError)
  /-- `StackOverflow()` (R182). -/
  | stackOverflow
  /-- `StackUnderflow()` (R183). -/
  | stackUnderflow
  deriving DecidableEq, Repr

/-- The numeric codes of the spec, in step order (R180, D18; labels only). -/
def FatalKind.code : FatalKind → Nat
  | .outOfBoundsMemoryAccess => 1
  | .decodeError => 2
  | .stackOverflow => 3
  | .stackUnderflow => 4

/-- The record of a condition raised at `pc` with instruction word `w`, absent for the fetch (R34, R180). -/
def Fatal.report (c : Fatal) (pc : Word) (w : Option Word) : FaultReport :=
  match c with
  | .outOfBounds a =>
    { kind := .outOfBoundsMemoryAccess, word := w, pc := pc, top := none, low := none, addr := some a }
  | .decode e =>
    { kind := .decodeError, word := some e.word, pc := pc, top := some e.top, low := some e.low, addr := none }
  | .stackOverflow => { kind := .stackOverflow, word := w, pc := pc, top := none, low := none, addr := none }
  | .stackUnderflow => { kind := .stackUnderflow, word := w, pc := pc, top := none, low := none, addr := none }

/-- `raise`: "`fault` is written with the fields of rule R180, `run <- Halted`, and the tick ends" (R186); nothing else
changes and `pc` stays at the faulting instruction (R106, R187). The ONE entry into a fatal condition (log 1). -/
def State.raise (s : State) (c : Fatal) (w : Option Word) : State :=
  { s with run := .halted, fault := some (c.report s.pc w) }

/-- `raise` from the handler of `i`: the word recorded is the instruction's own (R180; DEDUCED, log 31). -/
def raiseIn (i : Instr) (c : Fatal) (s : State) : Result := .next (s.raise c (some (encode i)))

/-- A handler that accesses the `len` bytes at `I`: the whole range is checked "before any byte, register or pixel
changes" (R56, D20; log 21); `done` is the state of the access that is in range. -/
def withRange (i : Instr) (len : Nat) (s : State) (done : State) : Result :=
  match outOfRange s.iReg.toNat len with
  | some a => raiseIn i (.outOfBounds a) s
  | none => .next done

/-! Steps 1 to 3 of the tick -/

/-- `bit(k)` (R6). -/
def keyBit (k : Fin 16) : Word := 1#16 <<< k.val

/-- `merge_keys()`, step 1 (R91; log 10). -/
def State.mergeKeys (s : State) : State :=
  { s with
    keysNew := s.bufPress
    keysHeld := (s.keysHeld &&& ~~~(s.bufRelease &&& ~~~s.bufPress)) ||| s.bufPress
    bufRelease := s.bufRelease &&& s.bufPress
    bufPress := 0 }

/-- "if DT != 0 then DT <- DT - 1": "floored at zero (never wraps negative)" (R92, R25). -/
def countDown (t : Byte) : Byte := if t = 0 then 0 else t - 1

/-- `timer_step()`, step 2 (R92; log 11). -/
def State.timerStep (s : State) : State :=
  if s.tickCtr + 1 = s.cfg.timerDiv then
    { s with tickCtr := 0, dt := countDown s.dt, st := countDown s.st }
  else { s with tickCtr := s.tickCtr + 1 }

/-- Step 3: `w <- MemRead(pc, 2)`, most significant byte first, no alignment check (R93, R53, R55, R57); the error is
the out-of-bounds condition. -/
def fetch (s : State) : Except Fatal Word :=
  match outOfRange s.pc.toNat 2 with
  | some a => .error (.outOfBounds a)
  | none => .ok (wordOfBytes (s.byte s.pc.toNat) (s.byte (s.pc.toNat + 1)))

/-- The two bytes of a word stored at `pc`, where the next fetch reads them (R53, R93); for `withFetchWord`. -/
def State.placeWord (s : State) (w : Word) : State := s.store s.pc.toNat [highByte w, lowByte w]

end Sys2Proof.Machine
end

