-- ==== Sys2Proof/Machine/Operands.lean ====
section
/-! DEFINITION. Every operand form of the instruction set (spec/30_encoding.md R71, spec/44_index_memory.md): extended
immediates, sums for `I` and `pc`, the glyph address, the decimal digits, the key tests and the lowest new key. -/

namespace Sys2Proof.Machine

/-- `zext_16(nnn)` (R6, R71). -/
def zextNnn (nnn : Addr12) : Word := nnn.setWidth 16

/-- `zext_16(b)` of a register value (R6). -/
def zextByte (b : Byte) : Word := b.setWidth 16

/-- The target of JP V0: `zext_16(nnn) + zext_16(V[0])`, not masked (R114, D31; log 27). -/
def jumpV0Target (s : State) (nnn : Addr12) : Word := zextNnn nnn + zextByte (s.v 0#4)

/-- `(I + zext_16(b)) mod 65536` (R151, D9; log 16). -/
def indexPlus (i : Word) (b : Byte) : Word := i + zextByte b

/-- `font_addr(v)` (R4, R152): `FONT_BASE + 5 * v` for a digit; above 15 it is unconstrained: a free value (log 4). -/
def fontAddr (c : Config) (v : Byte) : Word :=
  if v.toNat ≤ 15 then BitVec.ofNat 16 (c.fontBase + glyphBytes * v.toNat) else Config.fontAddrBeyond c v

/-- The three bytes of LD B: hundreds, tens, units, one binary digit per byte (R153). -/
def bcdDigits (v : Byte) : List Byte :=
  [BitVec.ofNat 8 (v.toNat / 100), BitVec.ofNat 8 (v.toNat / 10 % 10), BitVec.ofNat 8 (v.toNat % 10)]

/-- `pressed <- (v <= 15) and (keys_held[v] = 1)` (R124, R125, D15; log 20). -/
def keyPressed (held : Word) (v : Byte) : Bool := decide (v.toNat ≤ 15) && held.getLsbD v.toNat

/-- `lowest(m)`: the least `k` with `m[k] = 1` (R6), as the byte LD Vx, K stores; used for a non-zero mask only. -/
def lowestKey (m : Word) : Byte :=
  BitVec.ofNat 8 (((List.range 16).find? fun k => m.getLsbD k).getD 0)

/-- `rnd & kk` with the fresh random byte of this execution (R141, D27; log 3). -/
def randomMasked (s : State) (kk : Byte) : Byte := Config.randomByte s.randomCtr &&& kk

/-- This execution's random byte is used up (the model's own counter, log 3). -/
def State.drawRandom (s : State) : State := { s with randomCtr := s.randomCtr + 1 }

end Sys2Proof.Machine
end

