-- ==== Sys2Proof/Machine/Alu.lean ====
section
/-! DEFINITION. Register loads, ALU and random (spec/43_load_alu.md). Operands are read first, the result is written,
and a flag is written last (R105, D6; log 14). -/

namespace Sys2Proof.Machine

/-- `V[x] <- result; advance`, with `VF` untouched unless it is the destination (R133, D7; log 15). -/
def State.writeResult (s : State) (x : Nibble) (result : Byte) : State := (s.setV x result).advance

/-- `V[x] <- result; VF <- flag; advance`: with `x` = 15 `VF` ends as the flag (R105). -/
def State.writeFlagged (s : State) (x : Nibble) (result : Byte) (flag : Bool) : State :=
  ((s.setV x result).setFlag flag).advance

/-- R130. -/
def execLdImm (x : Nibble) (kk : Byte) (s : State) : Result := .next (s.writeResult x kk)

/-- R131: modulo 256, no flag. -/
def execAddImm (x : Nibble) (kk : Byte) (s : State) : Result := .next (s.writeResult x (s.v x + kk))

/-- R132. -/
def execLdReg (x y : Nibble) (s : State) : Result := .next (s.writeResult x (s.v y))

/-- R133. -/
def execOr (x y : Nibble) (s : State) : Result := .next (s.writeResult x (s.v x ||| s.v y))

/-- R134. -/
def execAnd (x y : Nibble) (s : State) : Result := .next (s.writeResult x (s.v x &&& s.v y))

/-- R135. -/
def execXor (x y : Nibble) (s : State) : Result := .next (s.writeResult x (s.v x ^^^ s.v y))

/-- R136: sum modulo 256, `VF` = carry. -/
def execAddReg (x y : Nibble) (s : State) : Result :=
  .next (s.writeFlagged x (s.v x + s.v y) (carryFlag (s.v x) (s.v y)))

/-- R137: `V[x] - V[y]` modulo 256, `VF` = 1 if `V[x] > V[y]`. -/
def execSub (x y : Nibble) (s : State) : Result :=
  .next (s.writeFlagged x (s.v x - s.v y) (greaterFlag (s.v x) (s.v y)))

/-- R138: logical right shift by one, `VF` = old bit 0; `y` ignored (R77). -/
def execShr (x _y : Nibble) (s : State) : Result := .next (s.writeFlagged x (s.v x >>> 1) (shrFlag (s.v x)))

/-- R139: `V[y] - V[x]` modulo 256, `VF` = 1 if `V[y] > V[x]`. -/
def execSubn (x y : Nibble) (s : State) : Result :=
  .next (s.writeFlagged x (s.v y - s.v x) (greaterFlag (s.v y) (s.v x)))

/-- R140: left shift by one modulo 256, `VF` = old bit 7; `y` ignored (R77). -/
def execShl (x _y : Nibble) (s : State) : Result := .next (s.writeFlagged x (s.v x <<< 1) (shlFlag (s.v x)))

/-- R141: `V[x] <- rnd & kk`, `rnd` a fresh free value (log 3). -/
def execRnd (x : Nibble) (kk : Byte) (s : State) : Result :=
  .next (s.drawRandom.writeResult x (randomMasked s kk))

end Sys2Proof.Machine
end

