-- ==== Sys2Proof/Machine/ControlFlow.lean ====
section
/-! DEFINITION. Control flow: SYS, RET, JP, CALL, JP V0 (spec/41_control_flow.md). -/

namespace Sys2Proof.Machine

/-- R110: `advance`; "`nnn`, ignored". -/
def execSys (_nnn : Addr12) (s : State) : Result := .next s.advance

/-- R111: StackUnderflow at `SP` = 0, else pop and jump; "no advance follows". -/
def execRet (s : State) : Result :=
  if s.sp = 0 then raiseIn .ret .stackUnderflow s else .next (s.drop.setPc s.top)

/-- R112: `pc <- zext_16(nnn)`. -/
def execJp (nnn : Addr12) (s : State) : Result := .next (s.setPc (zextNnn nnn))

/-- R113: StackOverflow at `SP` = 16, else push `pc + 2` (C1, D32; log 12) and jump. -/
def execCall (nnn : Addr12) (s : State) : Result :=
  if s.sp = 16 then raiseIn (.call nnn) .stackOverflow s
  else .next ((s.push (s.pc + 2)).setPc (zextNnn nnn))

/-- R114: `pc <- zext_16(nnn) + zext_16(V[0])`. -/
def execJpV0 (nnn : Addr12) (s : State) : Result := .next (s.setPc (jumpV0Target s nnn))

end Sys2Proof.Machine
end

