-- ==== Sys2Proof/Machine/Display.lean ====
section
/-! DEFINITION. The instructions that drive the display surface: CLS, DRW (spec/45_display.md R162, R163). -/

namespace Sys2Proof.Machine

/-- R162: clear, push a frame, advance. -/
def execCls (s : State) : Result := .next (s.setPx (Grid.clear s.px)).pushFrame.advance

/-- The part of R163 after the range check: coordinates and rows are read before `VF` is written; the grid is drawn, `VF`
takes the collision, one frame is pushed. -/
def State.drawSprite (s : State) (x y n : Nibble) : State :=
  let drawn := Grid.draw s.px s.cfg.width s.cfg.height (s.v x).toNat (s.v y).toNat
    (Memory.loadBytes s.mem s.iReg.toNat n.toNat)
  ((s.setPx drawn.1).setFlag drawn.2).pushFrame.advance

/-- R163: a sprite of `n` rows at (V[x], V[y]); `n` = 0 makes no access. -/
def execDrw (x y n : Nibble) (s : State) : Result := withRange (.drw x y n) n.toNat s (s.drawSprite x y n)

end Sys2Proof.Machine
end

