-- ==== Sys2Proof/Machine/IndexMemory.lean ====
section
/-! DEFINITION. The address register and the memory transfers (spec/44_index_memory.md). `I` is never modified by an
access. -/

namespace Sys2Proof.Machine

/-- R150: `I <- zext_16(nnn)`. -/
def execLdI (nnn : Addr12) (s : State) : Result := .next (s.setI (zextNnn nnn)).advance

/-- R151: `I <- (I + zext_16(V[x])) mod 65536`, no flag. -/
def execAddI (x : Nibble) (s : State) : Result := .next (s.setI (indexPlus s.iReg (s.v x))).advance

/-- R152: `I <- font_addr(V[x])`; above 15 a free value (log 4). -/
def execLdF (x : Nibble) (s : State) : Result := .next (s.setI (fontAddr s.cfg (s.v x))).advance

/-- R153: the three decimal digits stored at `I`, `I+1`, `I+2`. -/
def execLdB (x : Nibble) (s : State) : Result :=
  withRange (.ldB x) 3 s (s.store s.iReg.toNat (bcdDigits (s.v x))).advance

/-- R154: `V[0]..V[x]` stored from `I` on. -/
def execLdMemVx (x : Nibble) (s : State) : Result :=
  withRange (.ldMemVx x) (x.toNat + 1) s (s.store s.iReg.toNat (s.regsUpTo x)).advance

/-- R155: `V[0]..V[x]` loaded from `I` on. -/
def execLdVxMem (x : Nibble) (s : State) : Result :=
  withRange (.ldVxMem x) (x.toNat + 1) s (s.loadRegs x s.iReg.toNat).advance

end Sys2Proof.Machine
end

