-- ==== Sys2Proof/Machine/Skips.lean ====
section
/-! DEFINITION. The conditional skips: SE, SNE, SKP, SKNP (spec/42_skips.md). -/

namespace Sys2Proof.Machine

/-- R120: `if V[x] = kk then skip else advance`. -/
def execSeImm (x : Nibble) (kk : Byte) (s : State) : Result := .next (s.skipIf (s.v x == kk))

/-- R121: `if V[x] != kk then skip else advance`. -/
def execSneImm (x : Nibble) (kk : Byte) (s : State) : Result := .next (s.skipIf (s.v x != kk))

/-- R122: `if V[x] = V[y] then skip else advance`. -/
def execSeReg (x y : Nibble) (s : State) : Result := .next (s.skipIf (s.v x == s.v y))

/-- R123: `if V[x] != V[y] then skip else advance`. -/
def execSneReg (x y : Nibble) (s : State) : Result := .next (s.skipIf (s.v x != s.v y))

/-- R124: `if pressed then skip else advance`. -/
def execSkp (x : Nibble) (s : State) : Result := .next (s.skipIf (keyPressed s.keysHeld (s.v x)))

/-- R125: `if not pressed then skip else advance`. -/
def execSknp (x : Nibble) (s : State) : Result := .next (s.skipIf (!keyPressed s.keysHeld (s.v x)))

end Sys2Proof.Machine
end

