-- ==== Sys2Proof/Machine/TimersKeys.lean ====
section
/-! DEFINITION. The timer and key-wait instructions (spec/46_timers_keys.md), and the wait poll that completes a waiting
LD Vx, K (spec/40_step_cycle.md R100). -/

namespace Sys2Proof.Machine

/-- R170: `V[x] <- DT`. -/
def execLdVxDT (x : Nibble) (s : State) : Result := .next (s.setV x s.dt).advance

/-- A new key press completes LD Vx, K: `V[x] <- lowest(keys_new)`, `pc <- pc + 2` (R171, R100, D13; log 19). -/
def State.takeKey (s : State) (x : Nibble) : State := (s.setV x (lowestKey s.keysNew)).advance

/-- R171: with a new key the instruction completes in this tick; without, the engine waits with `pc` unchanged. -/
def execLdVxK (x : Nibble) (s : State) : Result :=
  if s.keysNew = 0 then .next (s.setRun .waitKey) else .next (s.takeKey x)

/-- R172: `DT <- V[x]`. -/
def execLdDTVx (x : Nibble) (s : State) : Result := .next (s.setDt (s.v x)).advance

/-- R173: `ST <- V[x]`. -/
def execLdSTVx (x : Nibble) (s : State) : Result := .next (s.setSt (s.v x)).advance

/-- The wait poll after its merge (R100): with no new key nothing more happens; with one, the register is the `x` field
`mem[pc][3:0]` of the instruction `pc` still addresses. That byte exists in every state a run reaches (log 29). -/
def waitPoll (s : State) : Result :=
  if s.keysNew = 0 then .next s
  else if s.pc.toNat < memSize then
    .next ((s.takeKey ((s.byte s.pc.toNat).extractLsb' 0 4)).setRun .running)
  else .fault (.pollOutsideMemory s.pc.toNat)

end Sys2Proof.Machine
end

