-- ==== Sys2Proof/Machine/HostInterface.lean ====
section
/-! DEFINITION. What the host does to the core (spec/00_scope.md R8): key events into the buffer (spec/40_step_cycle.md
R91), the inputs of the coming tick events (R101), and `load` (spec/70_reset_and_hazards.md R210 to R212, R221, R222). -/

namespace Sys2Proof.Machine

/-- `press(k)` (R91). -/
def hostPress (k : Fin 16) (s : State) : State :=
  { s with bufPress := s.bufPress ||| keyBit k, bufRelease := s.bufRelease &&& ~~~keyBit k }

/-- `release(k)` (R91). -/
def hostRelease (k : Fin 16) (s : State) : State := { s with bufRelease := s.bufRelease ||| keyBit k }

/-- One key event lands in the buffer. -/
def applyEvent (s : State) : KeyEvent → State
  | .press k => hostPress k s
  | .release k => hostRelease k s

/-- The host's input of the coming tick event; no entry means no event and no stop request (log 2). -/
def State.nextInput (s : State) : HostInput := s.hostInputs.headD { events := [], stopReq := false }

/-- Between two ticks: the key events of the coming tick's input land in the buffer, in every run state (R91, R103), and
the entry is used up. -/
def State.deliver (s : State) : State :=
  s.nextInput.events.foldl applyEvent { s with hostInputs := s.hostInputs.tail }

/-- No stop request stands for the coming tick; for `withFetchWord`. -/
def State.clearStop (s : State) : State :=
  match s.hostInputs with
  | [] => s
  | i :: rest => { s with hostInputs := { i with stopReq := false } :: rest }

/-- Memory after `load`: every byte 0 but the glyph table at `FONT_BASE` and the ROM from 512 on (R37, R210). The first
store takes the default table out of what an unlisted address reads as. -/
def loadImage (c : Config) (glyphs : Vector Byte 80) (rom : List Byte) : Mem :=
  Memory.storeBytes
    (Memory.storeBytes
      (Memory.storeBytes [] defaultConfig.fontBase (List.replicate glyphTable.length 0))
      c.fontBase glyphs.toList)
    progBase rom

/-- `load(rom)` on a machine with arguments `c`, the host supplying the glyph table (R210, R212): every piece of state
takes its reset value. A ROM of more than 3584 bytes is refused (R221, D5; log 28). -/
def load (c : Config) (glyphs : Vector Byte 80) (rom : List Byte) : Result :=
  if rom.length ≤ romMax then .next { State.resetWith c with mem := loadImage c glyphs rom }
  else .refused (.romTooLong rom.length)

/-- `s` after a load gave the core state `loaded`. What lies outside the core is not reset (R35): the random generator goes
on where it stood, so bytes after a reload are fresh ones; the host's coming inputs still come; the frames already pushed
stay the host's. DESIGN CHOICE (log 33): the spec says of none of the three what a second load does. -/
def State.reloadedAs (s loaded : State) : State :=
  { loaded with randomCtr := s.randomCtr, hostInputs := s.hostInputs, frames := s.frames }

/-- `load(rom)` on a core in any run state: "a full reset" of every piece of the core's state (R222), whatever it was;
only the arguments and what lies outside the core (log 33) are taken over. -/
def hostLoad (glyphs : Vector Byte 80) (rom : List Byte) (s : State) : Result :=
  match load s.cfg glyphs rom with
  | .next loaded => .next (s.reloadedAs loaded)
  | .fault f => .fault f
  | .refused r => .refused r

end Sys2Proof.Machine
end

