-- ==== Sys2Proof/Machine/Tick.lean ====
section
/-! DEFINITION. One tick event in each run state (spec/40_step_cycle.md R90, R100, R102, R103). -/

namespace Sys2Proof.Machine

/-- Steps 3 to 6 of a tick (R90): fetch, decode, dispatch; the first condition in step order wins (R185). -/
def fetchAndExecute (s : State) : Result :=
  match fetch s with
  | .error c => .next (s.raise c none)
  | .ok w =>
    match decodeWord w with
    | .error e => .next (s.raise (.decode e) (some w))
    | .ok i => exec i s

/-- A tick event with the stop request sampled first (R102). In Running the six steps (R90); in WaitKey a wait poll, with
no timer step and no fetch (R100, D12; log 18); in Halted and Stopped nothing (R103, D33; log 24). -/
def tick (stopReq : Bool) (s : State) : Result :=
  match s.run with
  | .running => if stopReq then .next (s.setRun .stopped) else fetchAndExecute s.mergeKeys.timerStep
  | .waitKey => if stopReq then .next (s.setRun .stopped) else waitPoll s.mergeKeys
  | .halted => .next s
  | .stopped => .next s

/-- The host's input lands (R91, R101), then the tick event runs. -/
def tickEvent (s : State) : Result := tick s.nextInput.stopReq s.deliver

/-- `s` with the word stored where the next fetch reads it, Running, and no stop request for the next tick event
(log 30). For a `pc` of at most 4094, where a word fits. -/
def placeNext (s : State) (w : Word) : State := ((s.placeWord w).setRun .running).clearStop

end Sys2Proof.Machine
end

