-- ==== Sys2Proof/Machine/Step.lean ====
section
/-! DEFINITION. The step: one `tick` event (spec/00_scope.md R5, R8; spec/40_step_cycle.md R90), with the host's input of
that tick delivered before it. -/

namespace Sys2Proof.Machine

/-- One tick event. -/
def step : State → Host.Outcome State Fault Refusal := tickEvent

/-- `s` with an instruction of `nbits` bits, numbered as the opcode table numbers them, placed so that the very next step
runs it: its word at `pc` high byte first (R53), the run state Running, no stop request (log 30). -/
def State.withFetchWord (s : State) (nbits w : Nat) : State := placeNext s (BitVec.ofNat 16 (w % 2 ^ nbits))

end Sys2Proof.Machine
end

