-- ==== Sys2Proof/Safety.lean ====
section
/-! DEFINITION. The terms claims are stated in: what two states have in common (the frames), the invariant of the machine
(spec/10_state.md R23, R24, R28, R30, R32 to R34), the reports of
the fatal conditions, the illegal words, and the pixels a sprite reaches. -/

namespace Sys2Proof.Machine

/-! Frames: what an instruction leaves unchanged. -/

/-- Every general register is unchanged. -/
def SameRegs (s t : State) : Prop := ∀ r, t.v r = s.v r

/-- Every byte of memory reads as before. -/
def SameMemory (s t : State) : Prop := ∀ a, t.byte a = s.byte a

/-- The return stack and its pointer are unchanged. -/
def SameStack (s t : State) : Prop := t.sp = s.sp ∧ t.stack = s.stack

/-- Both timers and the tick divider are unchanged. -/
def SameTimers (s t : State) : Prop := t.dt = s.dt ∧ t.st = s.st ∧ t.tickCtr = s.tickCtr

/-- Both key masks and both key buffers are unchanged. -/
def SameKeys (s t : State) : Prop :=
  t.keysHeld = s.keysHeld ∧ t.keysNew = s.keysNew ∧ t.bufPress = s.bufPress ∧ t.bufRelease = s.bufRelease

/-- The run state and the failure report are unchanged. -/
def SameRun (s t : State) : Prop := t.run = s.run ∧ t.fault = s.fault

/-- The grid is unchanged and no frame was pushed. -/
def SameDisplay (s t : State) : Prop := t.px = s.px ∧ t.frames = s.frames

/-- The machine's arguments and the host's coming inputs are unchanged. -/
def SameHost (s t : State) : Prop := t.cfg = s.cfg ∧ t.hostInputs = s.hostInputs

/-- All that no instruction but a special one touches: stack, timers, keys, run state, host, random counter. -/
def SameControl (s t : State) : Prop :=
  SameStack s t ∧ SameTimers s t ∧ SameKeys s t ∧ SameRun s t ∧ SameHost s t ∧ t.randomCtr = s.randomCtr

/-- Only the general registers and `pc` may differ. -/
def OnlyRegsAndPc (s t : State) : Prop :=
  t.iReg = s.iReg ∧ SameMemory s t ∧ SameDisplay s t ∧ SameControl s t

/-- Only `pc` may differ. -/
def OnlyPc (s t : State) : Prop := SameRegs s t ∧ OnlyRegsAndPc s t

/-- Only `I` and `pc` may differ. -/
def OnlyIAndPc (s t : State) : Prop :=
  SameRegs s t ∧ SameMemory s t ∧ SameDisplay s t ∧ SameControl s t

/-- Only memory and `pc` may differ. -/
def OnlyMemoryAndPc (s t : State) : Prop :=
  SameRegs s t ∧ t.iReg = s.iReg ∧ SameDisplay s t ∧ SameControl s t

/-- `t` is `s` halted with the report `r` and with nothing else changed (R106, R186, R187). -/
def HaltedWith (r : FaultReport) (s t : State) : Prop := t = { s with run := .halted, fault := some r }

/-! The word at `pc`, and the report of a fatal condition -/

/-- The word the next fetch would assemble at `pc` (R53). -/
def wordAtPc (s : State) : Word := s.byte s.pc.toNat ++ s.byte (s.pc.toNat + 1)

/-- `r` has the fields the table of R180 gives its condition, and no others, when a full tick from `s` raised it: the word
of every report but that of a failed fetch is the word at `pc`, and `addr` is the address of R184. -/
def ReportHasItsFields (s : State) (r : FaultReport) : Prop :=
  r.pc = s.pc ∧
  match r.kind with
  | .outOfBoundsMemoryAccess => r.top = none ∧ r.low = none ∧
    ((4095 ≤ s.pc.toNat ∧ r.word = none ∧ r.addr = some (max s.pc.toNat 4096)) ∨
     (s.pc.toNat ≤ 4094 ∧ r.word = some (wordAtPc s) ∧ r.addr = some (max s.iReg.toNat 4096)))
  | .decodeError => r.word = some (wordAtPc s) ∧ r.top = some ((wordAtPc s).extractLsb' 12 4) ∧
    r.low = some ((wordAtPc s).extractLsb' 0 4) ∧ r.addr = none
  | .stackOverflow => r.word = some (wordAtPc s) ∧ r.top = none ∧ r.low = none ∧ r.addr = none
  | .stackUnderflow => r.word = some 0x00EE#16 ∧ wordAtPc s = 0x00EE#16 ∧ r.top = none ∧ r.low = none ∧ r.addr = none

/-! The invariant -/

/-- The invariant of the machine, each clause a rule of the spec; every step keeps it. -/
structure Inv (s : State) : Prop where
  /-- The arguments are in the ranges of R4. -/
  cfg : s.cfg.wf = true
  /-- Memory is in its canonical form, with addresses 0..4095 only (R27). -/
  mem : Memory.wf s.mem = true
  /-- The grid is `HEIGHT` rows of `WIDTH` cells (R28). -/
  grid : Grid.shaped s.px s.cfg.width s.cfg.height = true
  /-- So is every frame pushed (R165). -/
  frames : ∀ g ∈ s.frames, Grid.shaped g s.cfg.width s.cfg.height = true
  /-- `tick_ctr` holds 0..`TIMER_DIV`-1 between ticks (R32). -/
  ctr : s.tickCtr < s.cfg.timerDiv
  /-- A key newly pressed is held (R30). -/
  keys : s.keysNew &&& ~~~s.keysHeld = 0
  /-- Each stack entry in use holds a value in 2..4096 (R24). -/
  stack : ∀ k : Fin 16, k.val < s.sp.val → 2 ≤ (s.stack.get k).toNat ∧ (s.stack.get k).toNat ≤ 4096
  /-- `pc` is at most 0x10FE (R23). -/
  pc : s.pc.toNat ≤ 0x10FE
  /-- A report is held exactly when the run halted (R33, R34). -/
  fault : s.run = .halted ↔ s.fault.isSome = true
  /-- While the engine waits, `pc` addresses a LD Vx, K (R33). -/
  wait : s.run = .waitKey → s.pc.toNat ≤ 4094 ∧ ∃ x, decodeWord (wordAtPc s) = .ok (.ldVxK x)

/-! Vocabulary of the statements -/

/-- The illegal words, group by group, as the table of R75 lists them. -/
def IllegalWord (w : Word) : Prop :=
  let top := (w.extractLsb' 12 4).toNat
  let low := (w.extractLsb' 0 4).toNat
  let kk := (w.extractLsb' 0 8).toNat
  (top = 0x5 ∧ low ≠ 0) ∨
  (top = 0x8 ∧ low ∈ [0x8, 0x9, 0xA, 0xB, 0xC, 0xD, 0xF]) ∨
  (top = 0x9 ∧ low ≠ 0) ∨
  (top = 0xE ∧ kk ∉ [0x9E, 0xA1]) ∨
  (top = 0xF ∧ kk ∉ [0x07, 0x0A, 0x15, 0x18, 0x1E, 0x29, 0x33, 0x55, 0x65])

/-- How many 1 bits of the sprite `rows`, drawn at (x0, y0) on a `w` × `h` grid, fall on column `x`, row `y` (R161). More
than one is possible only where `w` < 8 or `h` < the number of rows (D26). -/
def spriteHits (w h x0 y0 : Nat) (rows : List Byte) (x y : Nat) : Nat :=
  ((List.range rows.length).map fun i => (List.range 8).countP fun j =>
    (rows.getD i 0).getLsbD (7 - j) && decide (x = (x0 + j) % w ∧ y = (y0 + i) % h)).sum

/-- The tick event finds the engine Running and no stop request for it (R90, R102). -/
def FullTick (s : State) : Prop := s.run = .running ∧ s.nextInput.stopReq = false

/-- The state in which the fetch of a full tick happens: host input delivered, keys merged, timer step done (R90). -/
def beforeFetch (s : State) : State := s.deliver.mergeKeys.timerStep

/-- `n` tick events one after another, up to the first stop. -/
def ticks : Nat → State → Result
  | 0, s => .next s
  | n + 1, s =>
    match step s with
    | .next t => ticks n t
    | .fault f => .fault f
    | .refused r => .refused r

end Sys2Proof.Machine
end

