-- ==== Sys2Proof/Certificates/Slice0/Obligations.lean ====
section
/-! DEFINITION. The statements for the provers, each a `def Obligations.<Name> : Prop`. They are about the machine and not
about a program: its decoder, its tick, each instruction's effect and frame, reset, and what holds of the whole machine.
Fatal conditions are next states (log 1). Statements whose docstring names a decision D<n> of the spec or a log entry rest
on that choice. -/

open Sys2Proof Sys2Proof.Machine

/-- R74's table in mask and match form, all 35 rows, with the fields of R71 cut from the word by hand. The assignment of the low bytes 07, 15, 18, 1E, 29, 33 is the spec's general knowledge (G1, D29; log 26). -/
def Obligations.DecodeReadsTheOpcodeMap : Prop :=
  ∀ w : Word,
    (w = 0x00E0#16 → decodeWord w = .ok .cls) ∧
    (w = 0x00EE#16 → decodeWord w = .ok .ret) ∧
    (w &&& 0xF000#16 = 0x0000#16 → w ≠ 0x00E0#16 → w ≠ 0x00EE#16 → decodeWord w = .ok (.sys (w.extractLsb' 0 12))) ∧
    (w &&& 0xF000#16 = 0x1000#16 → decodeWord w = .ok (.jp (w.extractLsb' 0 12))) ∧
    (w &&& 0xF000#16 = 0x2000#16 → decodeWord w = .ok (.call (w.extractLsb' 0 12))) ∧
    (w &&& 0xF000#16 = 0x3000#16 → decodeWord w = .ok (.seImm (w.extractLsb' 8 4) (w.extractLsb' 0 8))) ∧
    (w &&& 0xF000#16 = 0x4000#16 → decodeWord w = .ok (.sneImm (w.extractLsb' 8 4) (w.extractLsb' 0 8))) ∧
    (w &&& 0xF00F#16 = 0x5000#16 → decodeWord w = .ok (.seReg (w.extractLsb' 8 4) (w.extractLsb' 4 4))) ∧
    (w &&& 0xF000#16 = 0x6000#16 → decodeWord w = .ok (.ldImm (w.extractLsb' 8 4) (w.extractLsb' 0 8))) ∧
    (w &&& 0xF000#16 = 0x7000#16 → decodeWord w = .ok (.addImm (w.extractLsb' 8 4) (w.extractLsb' 0 8))) ∧
    (w &&& 0xF00F#16 = 0x8000#16 → decodeWord w = .ok (.ldReg (w.extractLsb' 8 4) (w.extractLsb' 4 4))) ∧
    (w &&& 0xF00F#16 = 0x8001#16 → decodeWord w = .ok (.orReg (w.extractLsb' 8 4) (w.extractLsb' 4 4))) ∧
    (w &&& 0xF00F#16 = 0x8002#16 → decodeWord w = .ok (.andReg (w.extractLsb' 8 4) (w.extractLsb' 4 4))) ∧
    (w &&& 0xF00F#16 = 0x8003#16 → decodeWord w = .ok (.xorReg (w.extractLsb' 8 4) (w.extractLsb' 4 4))) ∧
    (w &&& 0xF00F#16 = 0x8004#16 → decodeWord w = .ok (.addReg (w.extractLsb' 8 4) (w.extractLsb' 4 4))) ∧
    (w &&& 0xF00F#16 = 0x8005#16 → decodeWord w = .ok (.sub (w.extractLsb' 8 4) (w.extractLsb' 4 4))) ∧
    (w &&& 0xF00F#16 = 0x8006#16 → decodeWord w = .ok (.shr (w.extractLsb' 8 4) (w.extractLsb' 4 4))) ∧
    (w &&& 0xF00F#16 = 0x8007#16 → decodeWord w = .ok (.subn (w.extractLsb' 8 4) (w.extractLsb' 4 4))) ∧
    (w &&& 0xF00F#16 = 0x800E#16 → decodeWord w = .ok (.shl (w.extractLsb' 8 4) (w.extractLsb' 4 4))) ∧
    (w &&& 0xF00F#16 = 0x9000#16 → decodeWord w = .ok (.sneReg (w.extractLsb' 8 4) (w.extractLsb' 4 4))) ∧
    (w &&& 0xF000#16 = 0xA000#16 → decodeWord w = .ok (.ldI (w.extractLsb' 0 12))) ∧
    (w &&& 0xF000#16 = 0xB000#16 → decodeWord w = .ok (.jpV0 (w.extractLsb' 0 12))) ∧
    (w &&& 0xF000#16 = 0xC000#16 → decodeWord w = .ok (.rnd (w.extractLsb' 8 4) (w.extractLsb' 0 8))) ∧
    (w &&& 0xF000#16 = 0xD000#16 → decodeWord w = .ok (.drw (w.extractLsb' 8 4) (w.extractLsb' 4 4) (w.extractLsb' 0 4))) ∧
    (w &&& 0xF0FF#16 = 0xE09E#16 → decodeWord w = .ok (.skp (w.extractLsb' 8 4))) ∧
    (w &&& 0xF0FF#16 = 0xE0A1#16 → decodeWord w = .ok (.sknp (w.extractLsb' 8 4))) ∧
    (w &&& 0xF0FF#16 = 0xF007#16 → decodeWord w = .ok (.ldVxDT (w.extractLsb' 8 4))) ∧
    (w &&& 0xF0FF#16 = 0xF00A#16 → decodeWord w = .ok (.ldVxK (w.extractLsb' 8 4))) ∧
    (w &&& 0xF0FF#16 = 0xF015#16 → decodeWord w = .ok (.ldDTVx (w.extractLsb' 8 4))) ∧
    (w &&& 0xF0FF#16 = 0xF018#16 → decodeWord w = .ok (.ldSTVx (w.extractLsb' 8 4))) ∧
    (w &&& 0xF0FF#16 = 0xF01E#16 → decodeWord w = .ok (.addI (w.extractLsb' 8 4))) ∧
    (w &&& 0xF0FF#16 = 0xF029#16 → decodeWord w = .ok (.ldF (w.extractLsb' 8 4))) ∧
    (w &&& 0xF0FF#16 = 0xF033#16 → decodeWord w = .ok (.ldB (w.extractLsb' 8 4))) ∧
    (w &&& 0xF0FF#16 = 0xF055#16 → decodeWord w = .ok (.ldMemVx (w.extractLsb' 8 4))) ∧
    (w &&& 0xF0FF#16 = 0xF065#16 → decodeWord w = .ok (.ldVxMem (w.extractLsb' 8 4)))

/-- R75's table of illegal words (`IllegalWord`), both directions. The counts R75 derives from it are not stated here. -/
def Obligations.IllegalWordsAreRejected : Prop :=
  ∀ w : Word,
    (IllegalWord w →
      decodeWord w = .error { word := w, top := w.extractLsb' 12 4, low := w.extractLsb' 0 4 }) ∧
    (¬ IllegalWord w → ∃ i, decodeWord w = .ok i ∧ WellFormed i = true)

/-- No bit of an encoding is dropped: all instructions, all operands (WellFormed only keeps SYS off the words of CLS and RET). -/
def Obligations.DecodeOfEncodeIsTheInstruction : Prop :=
  ∀ i : Instr, WellFormed i = true →
    decodeWord (encode i) = .ok i ∧ ∀ rest, decodeBytes (encodeBytes i ++ rest) = .ok (i, rest)

/-- S5: "a valid Instruction whose fields reconstruct the expected operand bits". -/
def Obligations.EncodeOfDecodeIsTheWord : Prop :=
  ∀ (w : Word) (i : Instr), decodeWord w = .ok i → encode i = w ∧ WellFormed i = true

/-- Six rows of V-DEC. That 0xF533 is the BCD store is the spec's general knowledge (G1, D29; log 26, PRESUMED). -/
def Obligations.SampleWordsDecode : Prop :=
  decodeWord 0x3A7F#16 = .ok (.seImm 10 0x7F) ∧ decodeWord 0x8ABE#16 = .ok (.shl 10 11) ∧
  decodeWord 0xD125#16 = .ok (.drw 1 2 5) ∧ decodeWord 0xF533#16 = .ok (.ldB 5) ∧
  decodeWord 0x00E1#16 = .ok (.sys 0x0E1) ∧
  decodeWord 0x8AB8#16 = .error { word := 0x8AB8, top := 8, low := 8 }

/-- The per-instruction statements reach a run through this one. `beforeFetch` is deliver, then R91, then R92; the last clause says what it leaves alone. -/
def Obligations.StepRunsTheDecodedInstruction : Prop :=
  ∀ (s : State) (i : Instr), FullTick s → s.pc.toNat ≤ 4094 →
    decodeWord (s.byte s.pc.toNat ++ s.byte (s.pc.toNat + 1)) = .ok i →
    step s = exec i (beforeFetch s) ∧
    SameRegs s (beforeFetch s) ∧ (beforeFetch s).iReg = s.iReg ∧ (beforeFetch s).pc = s.pc ∧
    SameStack s (beforeFetch s) ∧ SameMemory s (beforeFetch s) ∧ SameDisplay s (beforeFetch s) ∧
    SameRun s (beforeFetch s) ∧ (beforeFetch s).cfg = s.cfg ∧ (beforeFetch s).randomCtr = s.randomCtr

/-- R181, R94. That the halted state is `beforeFetch s` with nothing else changed is the spec's decision D17 (R106, R187; log 21, DESIGN CHOICE), taken as a next state (log 1, DEDUCED). A word that is only skipped over or only lies in memory is not fetched, so no other statement mentions it. -/
def Obligations.IllegalWordHalts : Prop :=
  ∀ s : State, FullTick s → s.pc.toNat ≤ 4094 →
    let w : Word := s.byte s.pc.toNat ++ s.byte (s.pc.toNat + 1)
    IllegalWord w →
    ∃ t, step s = .next t ∧
      HaltedWith { kind := .decodeError, word := some w, pc := s.pc, top := some (w.extractLsb' 12 4),
                   low := some (w.extractLsb' 0 4), addr := none } (beforeFetch s) t

/-- R102; that state is kept is the spec's decision D23 (log 24). `deliver` is the host's key events landing before the tick (log 2). -/
def Obligations.StopRequestStopsAtTickStart : Prop :=
  ∀ s : State, (s.run = .running ∨ s.run = .waitKey) → s.nextInput.stopReq = true →
    step s = .next { s.deliver with run := .stopped }

/-- R103, decision D33 (log 24): buffered events update the buffer by R91 and are never merged. DeliveryAppliesTheEventsInOrder says what `deliver` does. -/
def Obligations.HaltedAndStoppedStay : Prop :=
  ∀ s : State, (s.run = .halted ∨ s.run = .stopped) →
    step s = .next s.deliver ∧
    (∃ p r, s.deliver = { s with bufPress := p, bufRelease := r, hostInputs := s.hostInputs.tail }) ∧
    (s.hostInputs = [] → step s = .next s)

/-- R100; decisions D12 and D13 (log 18, log 19). A pc of 4096 or more in WaitKey is reached by no run (log 29). -/
def Obligations.WaitPollTakesTheLowestNewKey : Prop :=
  ∀ s : State, s.run = .waitKey → s.nextInput.stopReq = false →
    let u := s.deliver.mergeKeys
    SameTimers s u ∧
    (u.keysNew = 0 → step s = .next u) ∧
    (u.keysNew ≠ 0 → s.pc.toNat < 4096 →
      ∃ (k : Nat) (t : State), k < 16 ∧ u.keysNew.getLsbD k = true ∧ (∀ j, j < k → u.keysNew.getLsbD j = false) ∧
        step s = .next t ∧
        (∀ r, t.v r = if r = (s.byte s.pc.toNat).extractLsb' 0 4 then BitVec.ofNat 8 k else s.v r) ∧
        t.pc = s.pc + 2 ∧ t.run = .running ∧ t.fault = u.fault ∧ t.iReg = u.iReg ∧ SameMemory u t ∧
        SameDisplay u t ∧ SameStack u t ∧ SameTimers u t ∧ SameKeys u t ∧ SameHost u t ∧
        t.randomCtr = u.randomCtr)

/-- R91's update, decision D14 (log 10), one bit at a time. -/
def Obligations.KeyEventsAndMergeBitByBit : Prop :=
  ∀ s : State,
    (∀ (k : Fin 16) (j : Nat), j < 16 →
      (hostPress k s).bufPress.getLsbD j = (s.bufPress.getLsbD j || decide (j = k.val)) ∧
      (hostPress k s).bufRelease.getLsbD j = (s.bufRelease.getLsbD j && !decide (j = k.val)) ∧
      (hostRelease k s).bufRelease.getLsbD j = (s.bufRelease.getLsbD j || decide (j = k.val)) ∧
      (hostRelease k s).bufPress = s.bufPress) ∧
    (∀ k : Fin 16, (∃ p r, hostPress k s = { s with bufPress := p, bufRelease := r }) ∧
      (∃ r, hostRelease k s = { s with bufRelease := r })) ∧
    (∀ j, j < 16 →
      s.mergeKeys.keysNew.getLsbD j = s.bufPress.getLsbD j ∧
      s.mergeKeys.keysHeld.getLsbD j =
        (s.bufPress.getLsbD j || (s.keysHeld.getLsbD j && !s.bufRelease.getLsbD j)) ∧
      s.mergeKeys.bufRelease.getLsbD j = (s.bufRelease.getLsbD j && s.bufPress.getLsbD j) ∧
      s.mergeKeys.bufPress.getLsbD j = false) ∧
    (∃ n h p r, s.mergeKeys = { s with keysNew := n, keysHeld := h, bufPress := p, bufRelease := r })

/-- R91 (b): "would still register as 'held' for exactly that merge (not lost)"; the update is decision D14 (log 10). -/
def Obligations.InstantPressIsSeenOnce : Prop :=
  ∀ (s : State) (k : Fin 16),
    let u := (hostRelease k (hostPress k s)).mergeKeys
    u.keysHeld.getLsbD k.val = true ∧ u.keysNew.getLsbD k.val = true ∧
    u.mergeKeys.keysHeld.getLsbD k.val = false ∧ u.mergeKeys.keysNew.getLsbD k.val = false ∧
    s.mergeKeys.keysNew &&& ~~~s.mergeKeys.keysHeld = 0

/-- R92 without its phase, which is decision D11 (log 11). -/
def Obligations.TimersCountDownEveryDivTicks : Prop :=
  ∀ s : State,
    (s.tickCtr + 1 = s.cfg.timerDiv →
      s.timerStep.tickCtr = 0 ∧ s.timerStep.dt.toNat = s.dt.toNat - 1 ∧ s.timerStep.st.toNat = s.st.toNat - 1) ∧
    (s.tickCtr + 1 ≠ s.cfg.timerDiv →
      s.timerStep.tickCtr = s.tickCtr + 1 ∧ s.timerStep.dt = s.dt ∧ s.timerStep.st = s.st) ∧
    (∃ c d e, s.timerStep = { s with tickCtr := c, dt := d, st := e })

/-- R110; decision D30 (log 27). -/
def Obligations.SysOnlyAdvances : Prop :=
  ∀ (nnn : Addr12) (s : State), ∃ t, exec (.sys nnn) s = .next t ∧ t.pc = s.pc + 2 ∧ OnlyPc s t

/-- R111's normal case; its fatal case is StackFatalConditions. -/
def Obligations.RetPopsTheReturnAddress : Prop :=
  ∀ s : State, ∀ h : s.sp.val ≠ 0,
    ∃ t, exec .ret s = .next t ∧ t.sp.val = s.sp.val - 1 ∧ t.pc = s.stack[s.sp.val - 1]'(by omega) ∧
      t.stack = s.stack ∧ SameRegs s t ∧ t.iReg = s.iReg ∧ SameMemory s t ∧ SameDisplay s t ∧ SameTimers s t ∧
      SameKeys s t ∧ SameRun s t ∧ SameHost s t ∧ t.randomCtr = s.randomCtr

/-- R112. -/
def Obligations.JpSetsPc : Prop :=
  ∀ nnn : Addr12, decodeWord (formNnn 0x1#4 nnn) = .ok (.jp nnn) ∧
    ∀ s : State, ∃ t, exec (.jp nnn) s = .next t ∧ t.pc.toNat = nnn.toNat ∧ OnlyPc s t

/-- R114; the absence of a mask is decision D31 (log 27). -/
def Obligations.JpV0AddsRegisterZero : Prop :=
  ∀ (nnn : Addr12) (s : State),
    ∃ t, exec (.jpV0 nnn) s = .next t ∧ t.pc.toNat = nnn.toNat + (s.v 0#4).toNat ∧ OnlyPc s t

/-- R113's normal case; the pushed value is C1, decision D32 (log 12). -/
def Obligations.CallPushesTheNextAddress : Prop :=
  ∀ (nnn : Addr12) (s : State), ∀ h : s.sp.val < 16,
    ∃ t, exec (.call nnn) s = .next t ∧ t.pc.toNat = nnn.toNat ∧ t.sp.val = s.sp.val + 1 ∧
      t.stack[s.sp.val] = s.pc + 2 ∧ (∀ k : Fin 16, k.val ≠ s.sp.val → t.stack[k] = s.stack[k]) ∧
      SameRegs s t ∧ t.iReg = s.iReg ∧ SameMemory s t ∧ SameDisplay s t ∧ SameTimers s t ∧
      SameKeys s t ∧ SameRun s t ∧ SameHost s t ∧ t.randomCtr = s.randomCtr

/-- S9; C1 (log 12). -/
def Obligations.RetAfterCallReturnsBehindTheCall : Prop :=
  ∀ (nnn : Addr12) (s : State), s.sp.val < 16 →
    ∃ t, exec (.call nnn) s = .next t ∧
      ∀ u : State, SameStack t u → ∃ r, exec .ret u = .next r ∧ r.pc = s.pc + 2 ∧ r.sp = s.sp

/-- R182, R183, with the report of R180. That nothing else changes is the spec's decision D17 (log 21, DESIGN CHOICE), taken as a next state (log 1, DEDUCED); the word recorded is `encode` of the instruction (log 31, DEDUCED). With CallPushesTheNextAddress this is the depth test S6. -/
def Obligations.StackFatalConditions : Prop :=
  ∀ s : State,
    (s.sp.val = 16 → ∀ nnn : Addr12, ∃ t, exec (.call nnn) s = .next t ∧
      HaltedWith { kind := .stackOverflow, word := some (formNnn 0x2#4 nnn), pc := s.pc, top := none, low := none,
                   addr := none } s t) ∧
    (s.sp.val = 0 → ∃ t, exec .ret s = .next t ∧
      HaltedWith { kind := .stackUnderflow, word := some 0x00EE#16, pc := s.pc, top := none, low := none,
                   addr := none } s t)

/-- R120, R121. -/
def Obligations.ImmediateSkips : Prop :=
  ∀ (x : Nibble) (kk : Byte),
    decodeWord (formXkk 0x3#4 x kk) = .ok (.seImm x kk) ∧ decodeWord (formXkk 0x4#4 x kk) = .ok (.sneImm x kk) ∧
    ∀ s : State,
      (∃ t, exec (.seImm x kk) s = .next t ∧ t.pc = (if s.v x = kk then s.pc + 4 else s.pc + 2) ∧ OnlyPc s t) ∧
      (∃ t, exec (.sneImm x kk) s = .next t ∧ t.pc = (if s.v x = kk then s.pc + 2 else s.pc + 4) ∧ OnlyPc s t)

/-- R122, R123; `x = y` is the instance with equal registers. -/
def Obligations.RegisterSkips : Prop :=
  ∀ x y : Nibble,
    decodeWord (formXyn 0x5#4 x y 0#4) = .ok (.seReg x y) ∧ decodeWord (formXyn 0x9#4 x y 0#4) = .ok (.sneReg x y) ∧
    (∀ n : Nibble, n ≠ 0#4 → (∀ i, decodeWord (formXyn 0x5#4 x y n) ≠ .ok i) ∧
      (∀ i, decodeWord (formXyn 0x9#4 x y n) ≠ .ok i)) ∧
    ∀ s : State,
      (∃ t, exec (.seReg x y) s = .next t ∧ t.pc = (if s.v x = s.v y then s.pc + 4 else s.pc + 2) ∧ OnlyPc s t) ∧
      (∃ t, exec (.sneReg x y) s = .next t ∧ t.pc = (if s.v x = s.v y then s.pc + 2 else s.pc + 4) ∧ OnlyPc s t)

/-- R124, R125; decision D15 (log 20). -/
def Obligations.KeySkips : Prop :=
  ∀ (x : Nibble) (s : State),
    (∃ t, exec (.skp x) s = .next t ∧
      (((s.v x).toNat ≤ 15 ∧ s.keysHeld.getLsbD (s.v x).toNat = true) → t.pc = s.pc + 4) ∧
      (¬ ((s.v x).toNat ≤ 15 ∧ s.keysHeld.getLsbD (s.v x).toNat = true) → t.pc = s.pc + 2) ∧ OnlyPc s t) ∧
    (∃ t, exec (.sknp x) s = .next t ∧
      (((s.v x).toNat ≤ 15 ∧ s.keysHeld.getLsbD (s.v x).toNat = true) → t.pc = s.pc + 2) ∧
      (¬ ((s.v x).toNat ≤ 15 ∧ s.keysHeld.getLsbD (s.v x).toNat = true) → t.pc = s.pc + 4) ∧ OnlyPc s t)

/-- R130. -/
def Obligations.LoadImmediate : Prop :=
  ∀ (x : Nibble) (kk : Byte), decodeWord (formXkk 0x6#4 x kk) = .ok (.ldImm x kk) ∧
    ∀ s : State, ∃ t, exec (.ldImm x kk) s = .next t ∧
      (∀ r, t.v r = if r = x then kk else s.v r) ∧ t.pc = s.pc + 2 ∧ OnlyRegsAndPc s t

/-- R132. -/
def Obligations.CopyRegister : Prop :=
  ∀ x y : Nibble, decodeWord (formXyn 0x8#4 x y 0x0#4) = .ok (.ldReg x y) ∧
    ∀ s : State, ∃ t, exec (.ldReg x y) s = .next t ∧
      (∀ r, t.v r = if r = x then s.v y else s.v r) ∧ t.pc = s.pc + 2 ∧ OnlyRegsAndPc s t

/-- R131, R133 to R135; that VF is unchanged is decision D7 (log 15). -/
def Obligations.AddImmediateAndLogic : Prop :=
  ∀ (x y : Nibble) (kk : Byte) (s : State),
    (∃ t, exec (.addImm x kk) s = .next t ∧ (t.v x).toNat = ((s.v x).toNat + kk.toNat) % 256 ∧
      (∀ r, r ≠ x → t.v r = s.v r) ∧ t.pc = s.pc + 2 ∧ OnlyRegsAndPc s t) ∧
    (∃ t, exec (.orReg x y) s = .next t ∧
      (∀ k, (t.v x).getLsbD k = ((s.v x).getLsbD k || (s.v y).getLsbD k)) ∧
      (∀ r, r ≠ x → t.v r = s.v r) ∧ t.pc = s.pc + 2 ∧ OnlyRegsAndPc s t) ∧
    (∃ t, exec (.andReg x y) s = .next t ∧
      (∀ k, (t.v x).getLsbD k = ((s.v x).getLsbD k && (s.v y).getLsbD k)) ∧
      (∀ r, r ≠ x → t.v r = s.v r) ∧ t.pc = s.pc + 2 ∧ OnlyRegsAndPc s t) ∧
    (∃ t, exec (.xorReg x y) s = .next t ∧
      (∀ k, (t.v x).getLsbD k = ((s.v x).getLsbD k ^^ (s.v y).getLsbD k)) ∧
      (∀ r, r ≠ x → t.v r = s.v r) ∧ t.pc = s.pc + 2 ∧ OnlyRegsAndPc s t)

/-- R136; the order at x = 15 is decision D6 (log 14). -/
def Obligations.AddSetsCarry : Prop :=
  ∀ (x y : Nibble) (s : State), ∃ t, exec (.addReg x y) s = .next t ∧
    (t.v 15#4).toNat = (if (s.v x).toNat + (s.v y).toNat > 255 then 1 else 0) ∧
    (x ≠ 15#4 → (t.v x).toNat = ((s.v x).toNat + (s.v y).toNat) % 256) ∧
    (∀ r, r ≠ x → r ≠ 15#4 → t.v r = s.v r) ∧ t.pc = s.pc + 2 ∧ OnlyRegsAndPc s t

/-- R137, R139; C3, D8 (log 13) and D6 (log 14). -/
def Obligations.SubtractionsSetStrictFlag : Prop :=
  ∀ (x y : Nibble) (s : State),
    (∃ t, exec (.sub x y) s = .next t ∧
      (t.v 15#4).toNat = (if (s.v x).toNat > (s.v y).toNat then 1 else 0) ∧
      (x ≠ 15#4 → ((t.v x).toNat : Int) = ((s.v x).toNat - (s.v y).toNat : Int) % 256) ∧
      (∀ r, r ≠ x → r ≠ 15#4 → t.v r = s.v r) ∧ t.pc = s.pc + 2 ∧ OnlyRegsAndPc s t) ∧
    (∃ t, exec (.subn x y) s = .next t ∧
      (t.v 15#4).toNat = (if (s.v y).toNat > (s.v x).toNat then 1 else 0) ∧
      (x ≠ 15#4 → ((t.v x).toNat : Int) = ((s.v y).toNat - (s.v x).toNat : Int) % 256) ∧
      (∀ r, r ≠ x → r ≠ 15#4 → t.v r = s.v r) ∧ t.pc = s.pc + 2 ∧ OnlyRegsAndPc s t)

/-- R138, R140, R77; D6 (log 14). -/
def Obligations.ShiftsSetTheBitShiftedOut : Prop :=
  ∀ (x y : Nibble) (s : State),
    (∃ t, exec (.shr x y) s = .next t ∧ (t.v 15#4).toNat = (s.v x).toNat % 2 ∧
      (x ≠ 15#4 → (t.v x).toNat = (s.v x).toNat / 2) ∧
      (∀ r, r ≠ x → r ≠ 15#4 → t.v r = s.v r) ∧ t.pc = s.pc + 2 ∧ OnlyRegsAndPc s t) ∧
    (∃ t, exec (.shl x y) s = .next t ∧ (t.v 15#4).toNat = (s.v x).toNat / 128 ∧
      (x ≠ 15#4 → (t.v x).toNat = 2 * (s.v x).toNat % 256) ∧
      (∀ r, r ≠ x → r ≠ 15#4 → t.v r = s.v r) ∧ t.pc = s.pc + 2 ∧ OnlyRegsAndPc s t)

/-- R141; the byte is a free value (D27, log 3), so this holds whatever it is. -/
def Obligations.RandomIsMasked : Prop :=
  ∀ (x : Nibble) (kk : Byte) (s : State), ∃ t, exec (.rnd x kk) s = .next t ∧
    t.v x = Config.randomByte s.randomCtr &&& kk ∧ t.v x &&& ~~~kk = 0 ∧ (∀ r, r ≠ x → t.v r = s.v r) ∧
    t.pc = s.pc + 2 ∧ t.randomCtr = s.randomCtr + 1 ∧ t.iReg = s.iReg ∧ SameMemory s t ∧ SameDisplay s t ∧
    SameStack s t ∧ SameTimers s t ∧ SameKeys s t ∧ SameRun s t ∧ SameHost s t

/-- R150. -/
def Obligations.LoadIndex : Prop :=
  ∀ nnn : Addr12, decodeWord (formNnn 0xA#4 nnn) = .ok (.ldI nnn) ∧
    ∀ s : State, ∃ t, exec (.ldI nnn) s = .next t ∧ t.iReg.toNat = nnn.toNat ∧ t.pc = s.pc + 2 ∧ OnlyIAndPc s t

/-- R151; G1 (log 26), D9 (log 16), D7 (log 15). -/
def Obligations.AddIndexWrapsAt65536 : Prop :=
  ∀ (x : Nibble) (s : State), ∃ t, exec (.addI x) s = .next t ∧
    t.iReg.toNat = (s.iReg.toNat + (s.v x).toNat) % 65536 ∧ t.pc = s.pc + 2 ∧ OnlyIAndPc s t

/-- R152; above 15 the address is the model's free value (log 4), of which nothing is stated. -/
def Obligations.GlyphAddressOfDigit : Prop :=
  ∀ (x : Nibble) (s : State), s.cfg.fontBase ≤ 432 → ∃ t, exec (.ldF x) s = .next t ∧
    ((s.v x).toNat ≤ 15 → t.iReg.toNat = s.cfg.fontBase + 5 * (s.v x).toNat) ∧
    t.pc = s.pc + 2 ∧ OnlyIAndPc s t

/-- R153's normal case (the fatal case is RangeFatalConditions); G1 (log 26). The canonical form is an invariant (StepKeepsTheInvariant). -/
def Obligations.BcdStoresThreeDigits : Prop :=
  ∀ (x : Nibble) (s : State), s.iReg.toNat + 2 ≤ 4095 → ∃ t, exec (.ldB x) s = .next t ∧
    (Memory.wf s.mem = true →
      (t.byte s.iReg.toNat).toNat = (s.v x).toNat / 100 ∧
      (t.byte (s.iReg.toNat + 1)).toNat = (s.v x).toNat / 10 % 10 ∧
      (t.byte (s.iReg.toNat + 2)).toNat = (s.v x).toNat % 10) ∧
    (∀ a, (a < s.iReg.toNat ∨ s.iReg.toNat + 3 ≤ a) → t.byte a = s.byte a) ∧
    t.pc = s.pc + 2 ∧ SameRegs s t ∧ t.iReg = s.iReg ∧ SameDisplay s t ∧ SameControl s t

/-- R154's normal case; the fatal case is RangeFatalConditions. -/
def Obligations.BlockStoreWritesRegisters : Prop :=
  ∀ (x : Nibble) (s : State), s.iReg.toNat + x.toNat ≤ 4095 → ∃ t, exec (.ldMemVx x) s = .next t ∧
    (Memory.wf s.mem = true → ∀ k : Nibble, k.toNat ≤ x.toNat → t.byte (s.iReg.toNat + k.toNat) = s.v k) ∧
    (∀ a, (a < s.iReg.toNat ∨ s.iReg.toNat + x.toNat + 1 ≤ a) → t.byte a = s.byte a) ∧
    t.pc = s.pc + 2 ∧ SameRegs s t ∧ t.iReg = s.iReg ∧ SameDisplay s t ∧ SameControl s t

/-- R155's normal case; the fatal case is RangeFatalConditions. -/
def Obligations.BlockLoadReadsRegisters : Prop :=
  ∀ (x : Nibble) (s : State), s.iReg.toNat + x.toNat ≤ 4095 → ∃ t, exec (.ldVxMem x) s = .next t ∧
    (∀ k : Nibble, k.toNat ≤ x.toNat → t.v k = s.byte (s.iReg.toNat + k.toNat)) ∧
    (∀ k : Nibble, x.toNat < k.toNat → t.v k = s.v k) ∧ t.pc = s.pc + 2 ∧ OnlyRegsAndPc s t

/-- R184 and R57, with the reports of R180. That nothing is moved is the spec's decision D20 and that the effects of steps 1 and 2 stay is D17 (R106; log 21, DESIGN CHOICE), taken as a next state (log 1, DEDUCED); that `I` + k does not wrap is D9 (log 16, DESIGN CHOICE); a handler's word is `encode` of the instruction (log 31, DEDUCED). -/
def Obligations.RangeFatalConditions : Prop :=
  (∀ s : State, FullTick s → 4095 ≤ s.pc.toNat → ∃ t, step s = .next t ∧
    HaltedWith { kind := .outOfBoundsMemoryAccess, word := none, pc := s.pc, top := none, low := none,
                 addr := some (max s.pc.toNat 4096) } (beforeFetch s) t) ∧
  ∀ (x y n : Nibble) (s : State),
    let report (w : Word) : FaultReport :=
      { kind := .outOfBoundsMemoryAccess, word := some w, pc := s.pc, top := none, low := none,
        addr := some (max s.iReg.toNat 4096) }
    (1 ≤ n.toNat → s.iReg.toNat + n.toNat - 1 > 4095 →
      ∃ t, exec (.drw x y n) s = .next t ∧ HaltedWith (report (formXyn 0xD#4 x y n)) s t) ∧
    (s.iReg.toNat + 2 > 4095 →
      ∃ t, exec (.ldB x) s = .next t ∧ HaltedWith (report (formXkk 0xF#4 x 0x33#8)) s t) ∧
    (s.iReg.toNat + x.toNat > 4095 →
      (∃ t, exec (.ldMemVx x) s = .next t ∧ HaltedWith (report (formXkk 0xF#4 x 0x55#8)) s t) ∧
      (∃ t, exec (.ldVxMem x) s = .next t ∧ HaltedWith (report (formXkk 0xF#4 x 0x65#8)) s t))

/-- R160, R162. -/
def Obligations.ClsClearsAndPushesOneFrame : Prop :=
  decodeWord 0x00E0#16 = .ok .cls ∧
  ∀ s : State, ∃ t, exec .cls s = .next t ∧
    (∀ x y, Grid.get t.px x y = false) ∧ t.px.map List.length = s.px.map List.length ∧
    t.frames = t.px :: s.frames ∧ t.pc = s.pc + 2 ∧ SameRegs s t ∧ t.iReg = s.iReg ∧ SameMemory s t ∧ SameControl s t

/-- R163's normal case, over `Grid.draw` of R161 (DrawIsXorWithCollision says what that does); D6 (log 14), D24 (log 25). -/
def Obligations.DrwDrawsTheSpriteBytes : Prop :=
  ∀ (x y n : Nibble) (s : State), (n.toNat = 0 ∨ s.iReg.toNat + n.toNat - 1 ≤ 4095) →
    let d := Grid.draw s.px s.cfg.width s.cfg.height (s.v x).toNat (s.v y).toNat
      ((List.range n.toNat).map fun k => s.byte (s.iReg.toNat + k))
    ∃ t, exec (.drw x y n) s = .next t ∧ t.px = d.1 ∧ (t.v 15#4).toNat = (if d.2 then 1 else 0) ∧
      (∀ r, r ≠ 15#4 → t.v r = s.v r) ∧ t.frames = d.1 :: s.frames ∧ t.pc = s.pc + 2 ∧ t.iReg = s.iReg ∧
      SameMemory s t ∧ SameControl s t

/-- R161 at every size (R166): a pixel reached k times is inverted k times, and one reached twice or more is unset by one of the first two. Pixels reached twice are decision D26 (log 25); the last clause is R161's derived remark that the default grid has none. -/
def Obligations.DrawIsXorWithCollision : Prop :=
  ∀ (g : Grid) (w h x0 y0 : Nat) (rows : List Byte), Grid.shaped g w h = true → 1 ≤ w → 1 ≤ h →
    let d := Grid.draw g w h x0 y0 rows
    let hits := spriteHits w h x0 y0 rows
    Grid.shaped d.1 w h = true ∧
    (∀ x y, Grid.get d.1 x y = (Grid.get g x y ^^ decide (hits x y % 2 = 1))) ∧
    (d.2 = true ↔ ∃ x y, (1 ≤ hits x y ∧ Grid.get g x y = true) ∨ 2 ≤ hits x y) ∧
    (8 ≤ w → rows.length ≤ h → ∀ x y, hits x y ≤ 1)

/-- R164, with its premise that no pixel is reached twice where it is needed. -/
def Obligations.DrawTwiceRestoresTheGrid : Prop :=
  (∀ (g : Grid) (w h x0 y0 : Nat) (rows : List Byte), Grid.shaped g w h = true → 1 ≤ w → 1 ≤ h →
    let d1 := Grid.draw g w h x0 y0 rows
    let d2 := Grid.draw d1.1 w h x0 y0 rows
    let hits := spriteHits w h x0 y0 rows
    d2.1 = g ∧
    ((∀ x y, hits x y ≤ 1) →
      (d1.2 = true ↔ ∃ x y, hits x y = 1 ∧ Grid.get g x y = true) ∧
      (d2.2 = true ↔ ∃ x y, hits x y = 1 ∧ Grid.get g x y = false) ∧
      ((∃ x y, hits x y = 1) → (d1.2 = true ∨ d2.2 = true) ∧
        ((∀ x y, Grid.get g x y = false) → d1.2 = false ∧ d2.2 = true)))) ∧
  (∀ (g : Grid) (w h x0 y0 : Nat) (rows : List Byte), (∀ b ∈ rows, b = 0) → Grid.draw g w h x0 y0 rows = (g, false))

/-- R170, R172, R173; G1, D29 (log 26). -/
def Obligations.TimerRegisterTransfers : Prop :=
  ∀ (x : Nibble) (s : State),
    (∃ t, exec (.ldVxDT x) s = .next t ∧ (∀ r, t.v r = if r = x then s.dt else s.v r) ∧ t.pc = s.pc + 2 ∧
      OnlyRegsAndPc s t) ∧
    (∃ t, exec (.ldDTVx x) s = .next t ∧ t.dt = s.v x ∧ t.st = s.st ∧ t.tickCtr = s.tickCtr ∧ t.pc = s.pc + 2 ∧
      SameRegs s t ∧ t.iReg = s.iReg ∧ SameMemory s t ∧ SameDisplay s t ∧ SameStack s t ∧ SameKeys s t ∧
      SameRun s t ∧ SameHost s t ∧ t.randomCtr = s.randomCtr) ∧
    (∃ t, exec (.ldSTVx x) s = .next t ∧ t.st = s.v x ∧ t.dt = s.dt ∧ t.tickCtr = s.tickCtr ∧ t.pc = s.pc + 2 ∧
      SameRegs s t ∧ t.iReg = s.iReg ∧ SameMemory s t ∧ SameDisplay s t ∧ SameStack s t ∧ SameKeys s t ∧
      SameRun s t ∧ SameHost s t ∧ t.randomCtr = s.randomCtr)

/-- R171; D13 (log 19). WaitPollTakesTheLowestNewKey says how the wait ends. -/
def Obligations.KeyWaitCompletesOrWaits : Prop :=
  ∀ (x : Nibble) (s : State),
    (s.keysNew ≠ 0 → ∃ (k : Nat) (t : State), k < 16 ∧ s.keysNew.getLsbD k = true ∧
      (∀ j, j < k → s.keysNew.getLsbD j = false) ∧ exec (.ldVxK x) s = .next t ∧
      (∀ r, t.v r = if r = x then BitVec.ofNat 8 k else s.v r) ∧ t.pc = s.pc + 2 ∧ OnlyRegsAndPc s t) ∧
    (s.keysNew = 0 → exec (.ldVxK x) s = .next { s with run := .waitKey })

/-- R37's table; all values but pc and SP are decisions of the spec (log 6, 7, 8, 10, 11), the refusal is D5 (log 28). -/
def Obligations.LoadLeavesTheResetState : Prop :=
  ∀ (c : Config) (glyphs : Vector Byte 80) (rom : List Byte),
    (rom.length > 3584 → load c glyphs rom = .refused (.romTooLong rom.length)) ∧
    (c.wf = true → rom.length ≤ 3584 → ∃ t, load c glyphs rom = .next t ∧
      t.pc = 512 ∧ t.sp = 0 ∧ t.run = .running ∧ t.fault = none ∧ t.cfg = c ∧
      (∀ k, ∀ h : k < rom.length, t.byte (512 + k) = rom[k]) ∧
      (∀ k, ∀ h : k < 80, t.byte (c.fontBase + k) = glyphs[k]) ∧
      (∀ a, (a < 512 ∨ 512 + rom.length ≤ a) → (a < c.fontBase ∨ c.fontBase + 80 ≤ a) → t.byte a = 0) ∧
      Memory.wf t.mem = true ∧ (∀ r, t.v r = 0) ∧ t.iReg = 0 ∧ t.dt = 0 ∧ t.st = 0 ∧ (∀ k : Fin 16, t.stack[k] = 0) ∧
      t.keysHeld = 0 ∧ t.keysNew = 0 ∧ t.bufPress = 0 ∧ t.bufRelease = 0 ∧ t.tickCtr = 0 ∧
      Grid.shaped t.px c.width c.height = true ∧ (∀ x y, Grid.get t.px x y = false) ∧ t.frames = [])

/-- R222; R189: only load starts a new run. That the random counter, the coming inputs and the pushed frames are taken over is the model's choice (log 33); the refusal is D5 (log 28). -/
def Obligations.ReloadIsAFullReset : Prop :=
  ∀ (glyphs : Vector Byte 80) (rom : List Byte) (s : State),
    (rom.length > 3584 → hostLoad glyphs rom s = .refused (.romTooLong rom.length)) ∧
    (rom.length ≤ 3584 → ∃ u, load s.cfg glyphs rom = .next u ∧ u.run = .running ∧ u.fault = none ∧ u.cfg = s.cfg ∧
      ∀ s' : State, s'.cfg = s.cfg → hostLoad glyphs rom s' =
        .next { u with randomCtr := s'.randomCtr, hostInputs := s'.hostInputs, frames := s'.frames })

/-- The model's choice of arguments and glyphs at reset: log 5, log 8. -/
def Obligations.ResetIsTheLoadOfAnEmptyRom : Prop :=
  load defaultConfig conventionalGlyphs [] = .next State.reset ∧ State.reset.pc = 512 ∧
  State.reset.byte 0 = 0xF0 ∧ State.reset.byte 512 = 0

/-- The first half of the invariant argument; StepKeepsTheInvariant is the second. -/
def Obligations.ResetMeetsTheInvariant : Prop :=
  Inv State.reset

/-- R23's and R24's derived bounds, R27, R28, R30, R32 to R34, for every state and not only those a run reaches. -/
def Obligations.StepKeepsTheInvariant : Prop :=
  ∀ s t : State, Inv s → step s = .next t → Inv t

/-- The machine never stops the model: fatal conditions are next states (log 1), and the poll fault of log 29 needs a state outside the invariant. -/
def Obligations.InvariantStatesNeverGetStuck : Prop :=
  ∀ s : State, Inv s → ∃ t, step s = .next t ∧ Inv t

/-- What the host does between ticks cannot break what the steps keep. -/
def Obligations.HostActionsKeepTheInvariant : Prop :=
  (∀ (s : State) (k : Fin 16), Inv s → Inv (hostPress k s) ∧ Inv (hostRelease k s) ∧ Inv s.deliver) ∧
  (∀ (c : Config) (glyphs : Vector Byte 80) (rom : List Byte), c.wf = true → rom.length ≤ 3584 →
    ∃ t, load c glyphs rom = .next t ∧ Inv t) ∧
  (∀ (s : State) (glyphs : Vector Byte 80) (rom : List Byte), Inv s → rom.length ≤ 3584 →
    ∃ t, hostLoad glyphs rom s = .next t ∧ Inv t)

/-- R95. That a handler which raises a fatal condition answers a next state, the halted one, is R106 and R186 taken as a next state (log 1, DEDUCED). -/
def Obligations.EveryHandlerEndsInItsTick : Prop :=
  ∀ (i : Instr) (s : State), s.run = .running → ∃ t, exec i s = .next t ∧
    (t.run = .running ∨ t.run = .halted ∨ (t.run = .waitKey ∧ ∃ x, i = .ldVxK x))

/-- R96, R97, R98. The last clause takes in the halted state, whose unchanged `pc` is the spec's decision D17 (R106; log 21, DESIGN CHOICE), taken as a next state (log 1, DEDUCED). -/
def Obligations.OnlyFourHandlersSetPcDirectly : Prop :=
  ∀ (i : Instr) (s t : State), s.run = .running → exec i s = .next t →
    (∀ n, i ≠ .jp n) → (∀ n, i ≠ .call n) → i ≠ .ret → (∀ n, i ≠ .jpV0 n) →
    (t.run = .running → t.pc = s.pc + 2 ∨ (t.pc = s.pc + 4 ∧
      ((∃ x k, i = .seImm x k) ∨ (∃ x k, i = .sneImm x k) ∨ (∃ x y, i = .seReg x y) ∨ (∃ x y, i = .sneReg x y) ∨
       (∃ x, i = .skp x) ∨ (∃ x, i = .sknp x)))) ∧
    (t.run ≠ .running → t.pc = s.pc)

/-- R186 over every way a tick raises: the fetch, the decode and all handlers. That the state is `beforeFetch s` otherwise is the spec's decision D17 (R187; log 21, DESIGN CHOICE), taken as a next state (log 1, DEDUCED); the word of a handler's report is log 31 (DEDUCED); key events after the halt are D33 (log 24). `State.deliver^[n]` is n deliveries one after another. -/
def Obligations.FatalConditionChangesNothingElse : Prop :=
  ∀ s t : State, FullTick s → step s = .next t → t.run = .halted →
    (∃ r : FaultReport, ReportHasItsFields s r ∧ HaltedWith r (beforeFetch s) t) ∧
    ∀ (inputs : List HostInput) (n : Nat),
      ticks n { t with hostInputs := inputs } = .next (State.deliver^[n] { t with hostInputs := inputs }) ∧
      ∃ p r, State.deliver^[n] { t with hostInputs := inputs } =
        { t with bufPress := p, bufRelease := r, hostInputs := inputs.drop n }

/-- R21, a promise about the whole machine; D7 (log 15). -/
def Obligations.OnlySixInstructionsWriteVFAsFlag : Prop :=
  ∀ (i : Instr) (s t : State), exec i s = .next t →
    ((∃ x y, i = .addReg x y ∨ i = .sub x y ∨ i = .shr x y ∨ i = .subn x y ∨ i = .shl x y) →
      (t.v 15#4 = 0 ∨ t.v 15#4 = 1)) ∧
    ((∃ x y n, i = .drw x y n) → t.run ≠ .halted → (t.v 15#4 = 0 ∨ t.v 15#4 = 1)) ∧
    ((∀ x y, i ≠ .addReg x y ∧ i ≠ .sub x y ∧ i ≠ .shr x y ∧ i ≠ .subn x y ∧ i ≠ .shl x y) →
      (∀ x y n, i ≠ .drw x y n) →
      (∀ y k, i ≠ .ldImm 15 k ∧ i ≠ .addImm 15 k ∧ i ≠ .ldReg 15 y ∧ i ≠ .orReg 15 y ∧ i ≠ .andReg 15 y ∧
        i ≠ .xorReg 15 y ∧ i ≠ .rnd 15 k ∧ i ≠ .ldVxDT 15 ∧ i ≠ .ldVxK 15 ∧ i ≠ .ldVxMem 15) →
      t.v 15#4 = s.v 15#4)

/-- R36's "written by" column, with R22, R24 to R28; the timer step and the merge are outside exec. -/
def Obligations.EachStateHasItsOwnWriters : Prop :=
  ∀ (i : Instr) (s t : State), exec i s = .next t →
    ((∀ n, i ≠ .call n) → t.stack = s.stack) ∧
    ((∀ n, i ≠ .call n) → i ≠ .ret → t.sp = s.sp) ∧
    ((∀ n, i ≠ .ldI n) → (∀ x, i ≠ .addI x ∧ i ≠ .ldF x) → t.iReg = s.iReg) ∧
    ((∀ x, i ≠ .ldDTVx x) → t.dt = s.dt) ∧ ((∀ x, i ≠ .ldSTVx x) → t.st = s.st) ∧
    ((∀ x, i ≠ .ldB x ∧ i ≠ .ldMemVx x) → t.mem = s.mem) ∧
    (i ≠ .cls → (∀ x y n, i ≠ .drw x y n) → SameDisplay s t) ∧
    t.tickCtr = s.tickCtr ∧ SameKeys s t ∧ SameHost s t

/-- R26 "read by no instruction"; R35, R165: the frame list is output only (log 9). -/
def Obligations.SoundTimerAndFramesAreNeverRead : Prop :=
  ∀ (s t : State) (a : Byte) (f : List Grid), step s = .next t →
    ∃ b new, t.frames = new ++ s.frames ∧ step { s with st := a, frames := f } = .next { t with st := b, frames := new ++ f }

/-- R33's table of entries and exits. -/
def Obligations.RunStateTransitions : Prop :=
  ∀ s t : State, step s = .next t →
    (s.run = .halted → t.run = .halted) ∧ (s.run = .stopped → t.run = .stopped) ∧
    (s.run = .waitKey → t.run ≠ .halted) ∧
    ((s.run = .running ∨ s.run = .waitKey) → (t.run = .stopped ↔ s.nextInput.stopReq = true)) ∧
    (s.run = .running → t.run = .waitKey → t.keysNew = 0 ∧ t.pc = s.pc) ∧
    (s.run = .waitKey → t.run = .running → t.keysNew ≠ 0 ∧ t.pc = s.pc + 2)

/-- R60, self-modifying code as in P5; D22 (log 23). -/
def Obligations.StoredBytesAreFetchedNext : Prop :=
  ∀ (s : State) (i : Instr), s.run = .running → Memory.wf s.mem = true → s.iReg = s.pc + 2 →
    s.iReg.toNat + 1 ≤ 4095 → s.nextInput.stopReq = false → decodeWord (s.v 0#4 ++ s.v 1#4) = .ok i →
    ∃ t, exec (.ldMemVx 1#4) s = .next t ∧ step t = exec i (beforeFetch t)

/-- R91, R101, one event at a time; the entries are the model's form of the host's events (log 2, DESIGN CHOICE). KeyEventsAndMergeBitByBit says what `hostPress` and `hostRelease` do. -/
def Obligations.DeliveryAppliesTheEventsInOrder : Prop :=
  ∀ s : State,
    (s.hostInputs = [] → s.deliver = s) ∧
    (∀ stop rest, s.hostInputs = { events := [], stopReq := stop } :: rest → s.deliver = { s with hostInputs := rest }) ∧
    (∀ k events stop rest, s.hostInputs = { events := .press k :: events, stopReq := stop } :: rest →
      s.deliver = State.deliver
        { hostPress k s with hostInputs := { events := events, stopReq := stop } :: rest }) ∧
    (∀ k events stop rest, s.hostInputs = { events := .release k :: events, stopReq := stop } :: rest →
      s.deliver = State.deliver
        { hostRelease k s with hostInputs := { events := events, stopReq := stop } :: rest })
end

