-- ==== Sys2Proof/Laws/Decode.lean ====
section
/-! SUPPORT. The fields of an assembled word, and a word assembled from its fields (spec/30_encoding.md R71, R72). -/

namespace Sys2Proof

/-! The bits of each form. -/

theorem formNnn_bit (t : Nibble) (a : Addr12) (i : Nat) :
    (formNnn t a).getLsbD i = if i < 12 then a.getLsbD i else t.getLsbD (i - 12) :=
  BitVec.getLsbD_append

theorem formXkk_bit (t x : Nibble) (k : Byte) (i : Nat) :
    (formXkk t x k).getLsbD i =
      if i < 8 then k.getLsbD i else if i - 8 < 4 then x.getLsbD (i - 8) else t.getLsbD (i - 8 - 4) := by
  have h : (formXkk t x k).getLsbD i = if i < 8 then k.getLsbD i else (t ++ x).getLsbD (i - 8) :=
    BitVec.getLsbD_append
  rw [h]; split
  · rfl
  · exact BitVec.getLsbD_append

theorem formXyn_eq (t x y n : Nibble) : formXyn t x y n = formXkk t x (y ++ n) := rfl

theorem nibbles_bit (y n : Nibble) (i : Nat) :
    BitVec.getLsbD (w := 8) (y ++ n) i = if i < 4 then n.getLsbD i else y.getLsbD (i - 4) :=
  BitVec.getLsbD_append

theorem wordOfBytes_bit (hi lo : Byte) (i : Nat) :
    (wordOfBytes hi lo).getLsbD i = if i < 8 then lo.getLsbD i else hi.getLsbD (i - 8) :=
  BitVec.getLsbD_append

/-! The fields of an assembled word. -/

@[simp] theorem fieldTop_formNnn (t : Nibble) (a : Addr12) : fieldTop (formNnn t a) = t := by
  apply BitVec.eq_of_getLsbD_eq; intro i hi
  simp [fieldTop, formNnn_bit, hi]

@[simp] theorem fieldNnn_formNnn (t : Nibble) (a : Addr12) : fieldNnn (formNnn t a) = a := by
  apply BitVec.eq_of_getLsbD_eq; intro i hi
  simp [fieldNnn, formNnn_bit, hi]

@[simp] theorem fieldTop_formXkk (t x : Nibble) (k : Byte) : fieldTop (formXkk t x k) = t := by
  apply BitVec.eq_of_getLsbD_eq; intro i hi
  have h1 : ¬ 12 + i < 8 := by omega
  have h2 : ¬ 12 + i - 8 < 4 := by omega
  have h3 : 12 + i - 8 - 4 = i := by omega
  simp [fieldTop, formXkk_bit, h1, h2, h3, hi]

@[simp] theorem fieldX_formXkk (t x : Nibble) (k : Byte) : fieldX (formXkk t x k) = x := by
  apply BitVec.eq_of_getLsbD_eq; intro i hi
  simp [fieldX, formXkk_bit, hi]

@[simp] theorem fieldKk_formXkk (t x : Nibble) (k : Byte) : fieldKk (formXkk t x k) = k := by
  apply BitVec.eq_of_getLsbD_eq; intro i hi
  simp [fieldKk, formXkk_bit, hi]

@[simp] theorem fieldTop_formXyn (t x y n : Nibble) : fieldTop (formXyn t x y n) = t :=
  fieldTop_formXkk t x (y ++ n)

@[simp] theorem fieldX_formXyn (t x y n : Nibble) : fieldX (formXyn t x y n) = x :=
  fieldX_formXkk t x (y ++ n)

@[simp] theorem fieldY_formXyn (t x y n : Nibble) : fieldY (formXyn t x y n) = y := by
  apply BitVec.eq_of_getLsbD_eq; intro i hi
  have h1 : 4 + i < 8 := by omega
  simp only [fieldY, formXyn_eq, BitVec.getLsbD_extractLsb', formXkk_bit, nibbles_bit, h1, hi, if_true]
  simp

@[simp] theorem fieldN_formXyn (t x y n : Nibble) : fieldN (formXyn t x y n) = n := by
  apply BitVec.eq_of_getLsbD_eq; intro i hi
  have h1 : i < 8 := by omega
  simp only [fieldN, formXyn_eq, BitVec.getLsbD_extractLsb', formXkk_bit, nibbles_bit, h1, hi, Nat.zero_add, if_true]
  simp

/-! A word is its fields. -/

/-- Format NNN (R72). -/
theorem formNnn_fields (w : Word) : formNnn (fieldTop w) (fieldNnn w) = w := by
  apply BitVec.eq_of_getLsbD_eq; intro i hi
  rw [formNnn_bit]
  split
  · simp [fieldNnn, *]
  · have h1 : 12 + (i - 12) = i := by omega
    have h2 : i - 12 < 4 := by omega
    simp [fieldTop, h1, h2]

/-- Format XKK (R72). -/
theorem formXkk_fields (w : Word) : formXkk (fieldTop w) (fieldX w) (fieldKk w) = w := by
  apply BitVec.eq_of_getLsbD_eq; intro i hi
  rw [formXkk_bit]
  split
  · simp [fieldKk, *]
  · split
    · simp [fieldX, show 8 + (i - 8) = i by omega, *]
    · have h1 : 12 + (i - 8 - 4) = i := by omega
      have h2 : i - 8 - 4 < 4 := by omega
      simp [fieldTop, h1, h2]

/-- "`kk` contains `y`, `n`" (R71). -/
theorem fieldKk_eq (w : Word) : fieldKk w = (fieldY w ++ fieldN w : Byte) := by
  apply BitVec.eq_of_getLsbD_eq; intro i hi
  rw [nibbles_bit]
  split
  · simp [fieldKk, fieldN, *]
  · have h1 : 4 + (i - 4) = i := by omega
    have h2 : i - 4 < 4 := by omega
    simp [fieldKk, fieldY, h1, h2, hi]

/-- Formats XY and XYN (R72). -/
theorem formXyn_fields (w : Word) : formXyn (fieldTop w) (fieldX w) (fieldY w) (fieldN w) = w := by
  rw [formXyn_eq, ← fieldKk_eq]; exact formXkk_fields w

/-- Two bytes of a word put together again, high byte first (R53). -/
@[simp] theorem wordOfBytes_bytes (w : Word) : wordOfBytes (highByte w) (lowByte w) = w := by
  apply BitVec.eq_of_getLsbD_eq; intro i hi
  rw [wordOfBytes_bit]
  split
  · simp [lowByte, *]
  · have h1 : 8 + (i - 8) = i := by omega
    have h2 : i - 8 < 8 := by omega
    simp [highByte, h1, h2]

end Sys2Proof
end

