-- ==== Sys2Proof/Laws/Memory.lean ====
section
/-! SUPPORT. What the memory operations do (spec/20_memory.md R52, R53, R58): a read after a write, the frame of a write,
and that every operation keeps the canonical form. -/

namespace Sys2Proof.Machine

/-- A write leaves every other byte alone (R58). -/
theorem Memory.read_write_other (m : Mem) (a a' : Nat) (v : Byte) (h : a' ≠ a) :
    Memory.read (Memory.write m a v) a' = Memory.read m a' := by
  induction m with
  | nil =>
    unfold Memory.write
    split
    · rfl
    · simp [Memory.read, Ne.symm h]
  | cons c m ih =>
    obtain ⟨k, b⟩ := c
    unfold Memory.write
    split_ifs with h1 h2 h3 h4
    · rfl
    · simp [Memory.read, Ne.symm h]
    · subst h3; simp [Memory.read, Ne.symm h]
    · subst h3; simp [Memory.read, Ne.symm h]
    · simp [Memory.read, ih]

/-- An address below every listed one reads as unlisted. -/
theorem Memory.read_below (m : Mem) (lo a : Nat) (h : Memory.risesFrom lo m = true) (ha : a < lo) :
    Memory.read m a = resetByte a := by
  induction m generalizing lo with
  | nil => rfl
  | cons c m ih =>
    obtain ⟨k, b⟩ := c
    simp only [Memory.risesFrom, Bool.and_eq_true, decide_eq_true_eq] at h
    have hk : k ≠ a := by omega
    simp only [Memory.read, hk, if_false]
    exact ih (k + 1) h.2 (by omega)

/-- A read after a write to the same address gives the byte written (R52, R58). -/
theorem Memory.read_write_same (m : Mem) (lo a : Nat) (v : Byte) (h : Memory.risesFrom lo m = true) :
    Memory.read (Memory.write m a v) a = v := by
  induction m generalizing lo with
  | nil =>
    unfold Memory.write
    split
    · simp_all [Memory.read]
    · simp [Memory.read]
  | cons c m ih =>
    obtain ⟨k, b⟩ := c
    simp only [Memory.risesFrom, Bool.and_eq_true, decide_eq_true_eq] at h
    unfold Memory.write
    split_ifs with h1 h2 h3 h4
    · have hk : k ≠ a := by omega
      simp only [Memory.read, hk, if_false]
      rw [Memory.read_below m (k + 1) a h.2 (by omega), h2]
    · simp [Memory.read]
    · subst h3
      rw [Memory.read_below m (a + 1) a h.2 (by omega), h4]
    · simp [Memory.read]
    · have hk : k ≠ a := by omega
      simp only [Memory.read, hk, if_false]
      exact ih (k + 1) h.2

theorem Memory.risesFrom_mono (m : Mem) (lo lo' : Nat) (h : Memory.risesFrom lo m = true) (hle : lo' ≤ lo) :
    Memory.risesFrom lo' m = true := by
  cases m with
  | nil => rfl
  | cons c m =>
    simp only [Memory.risesFrom, Bool.and_eq_true, decide_eq_true_eq] at h ⊢
    exact ⟨by omega, h.2⟩

/-- A write keeps the addresses rising. -/
theorem Memory.write_rises (m : Mem) (lo a : Nat) (v : Byte) (h : Memory.risesFrom lo m = true) (ha : lo ≤ a) :
    Memory.risesFrom lo (Memory.write m a v) = true := by
  induction m generalizing lo with
  | nil => unfold Memory.write; split <;> simp [Memory.risesFrom, ha]
  | cons c m ih =>
    obtain ⟨k, b⟩ := c
    have h' := h
    simp only [Memory.risesFrom, Bool.and_eq_true, decide_eq_true_eq] at h
    unfold Memory.write
    split_ifs with h1 h2 h3 h4
    · exact h'
    · simp only [Memory.risesFrom, Bool.and_eq_true, decide_eq_true_eq]; exact ⟨ha, by omega, h.2⟩
    · exact Memory.risesFrom_mono m (k + 1) lo h.2 (by omega)
    · subst h3; simp only [Memory.risesFrom, Bool.and_eq_true, decide_eq_true_eq]; exact ⟨ha, h.2⟩
    · simp only [Memory.risesFrom, Bool.and_eq_true, decide_eq_true_eq]
      exact ⟨h.1, ih (k + 1) h.2 (by omega)⟩

/-- A cell of the memory after a write is the written one, and then not the unlisted byte, or an old one. -/
theorem Memory.mem_write (m : Mem) (a : Nat) (v : Byte) (c : Host.Cell) (h : c ∈ Memory.write m a v) :
    (c = (a, v) ∧ v ≠ resetByte a) ∨ c ∈ m := by
  induction m with
  | nil => unfold Memory.write at h; split at h <;> simp_all
  | cons d m ih =>
    obtain ⟨k, b⟩ := d
    unfold Memory.write at h
    split_ifs at h with h1 h2 h3 h4 <;> simp only [List.mem_cons] at h ⊢ <;> tauto

/-- A write below `memSize` keeps the canonical form. -/
theorem Memory.write_wf (m : Mem) (a : Nat) (v : Byte) (h : Memory.wf m = true) (ha : a < memSize) :
    Memory.wf (Memory.write m a v) = true := by
  simp only [Memory.wf, Bool.and_eq_true, List.all_eq_true, decide_eq_true_eq, bne_iff_ne] at h ⊢
  refine ⟨Memory.write_rises m 0 a v h.1 (Nat.zero_le _), fun c hc => ?_⟩
  rcases Memory.mem_write m a v c hc with ⟨rfl, hv⟩ | hc
  · exact ⟨ha, hv⟩
  · exact h.2 c hc

/-- A store of bytes inside memory keeps the canonical form. -/
theorem Memory.storeBytes_wf (bs : List Byte) (m : Mem) (a : Nat) (h : Memory.wf m = true)
    (ha : a + bs.length ≤ memSize) : Memory.wf (Memory.storeBytes m a bs) = true := by
  induction bs generalizing m a with
  | nil => exact h
  | cons b bs ih =>
    simp only [List.length_cons] at ha
    exact ih (Memory.write m a b) (a + 1) (Memory.write_wf m a b h (by omega)) (by omega)

/-- A store of bytes leaves every byte outside its range alone. -/
theorem Memory.read_storeBytes_other (bs : List Byte) (m : Mem) (a a' : Nat) (h : a' < a ∨ a + bs.length ≤ a') :
    Memory.read (Memory.storeBytes m a bs) a' = Memory.read m a' := by
  induction bs generalizing m a with
  | nil => rfl
  | cons b bs ih =>
    simp only [List.length_cons] at h
    rw [Memory.storeBytes, ih _ _ (by omega), Memory.read_write_other _ _ _ _ (by omega)]

theorem Memory.storeBytes_rises (bs : List Byte) (m : Mem) (a : Nat) (h : Memory.risesFrom 0 m = true) :
    Memory.risesFrom 0 (Memory.storeBytes m a bs) = true := by
  induction bs generalizing m a with
  | nil => exact h
  | cons b bs ih => exact ih _ _ (Memory.write_rises m 0 a b h (Nat.zero_le _))

/-- A byte inside the range of a store reads as the byte stored there. -/
theorem Memory.read_storeBytes (bs : List Byte) (m : Mem) (a k : Nat) (h : Memory.risesFrom 0 m = true)
    (hk : k < bs.length) : Memory.read (Memory.storeBytes m a bs) (a + k) = bs[k] := by
  induction bs generalizing m a k with
  | nil => simp at hk
  | cons b bs ih =>
    rw [Memory.storeBytes]
    cases k with
    | zero =>
      show Memory.read (Memory.storeBytes (Memory.write m a b) (a + 1) bs) a = b
      rw [Memory.read_storeBytes_other _ _ _ _ (by omega), Memory.read_write_same m 0 a b h]
    | succ k =>
      have := ih (Memory.write m a b) (a + 1) k (Memory.write_rises m 0 a b h (Nat.zero_le _))
        (by simpa using hk)
      simpa [Nat.add_assoc, Nat.add_comm 1 k] using this

theorem Memory.rises_of_wf {m : Mem} (h : Memory.wf m = true) : Memory.risesFrom 0 m = true := by
  simp only [Memory.wf, Bool.and_eq_true] at h; exact h.1

/-- The reset memory lists nothing, so it has the form. -/
theorem Memory.reset_wf : Memory.wf State.reset.mem = true := by rfl

end Sys2Proof.Machine
end

