-- ==== Sys2Proof/Laws/State.lean ====
section
/-! SUPPORT. One lemma per field per update of the state: what an update writes, and that it writes nothing else. The
accessors `v` (a register) and `byte` (a memory byte) are listed beside the fields they read. -/

namespace Sys2Proof.Machine

/-! State.setV -/

@[simp] theorem State.setV_regs (s : State) (x : Nibble) (b : Byte) : (s.setV x b).regs = s.regs.set x.toNat b x.isLt := rfl
@[simp] theorem State.setV_iReg (s : State) (x : Nibble) (b : Byte) : (s.setV x b).iReg = s.iReg := rfl
@[simp] theorem State.setV_pc (s : State) (x : Nibble) (b : Byte) : (s.setV x b).pc = s.pc := rfl
@[simp] theorem State.setV_sp (s : State) (x : Nibble) (b : Byte) : (s.setV x b).sp = s.sp := rfl
@[simp] theorem State.setV_stack (s : State) (x : Nibble) (b : Byte) : (s.setV x b).stack = s.stack := rfl
@[simp] theorem State.setV_dt (s : State) (x : Nibble) (b : Byte) : (s.setV x b).dt = s.dt := rfl
@[simp] theorem State.setV_st (s : State) (x : Nibble) (b : Byte) : (s.setV x b).st = s.st := rfl
@[simp] theorem State.setV_mem (s : State) (x : Nibble) (b : Byte) : (s.setV x b).mem = s.mem := rfl
@[simp] theorem State.setV_px (s : State) (x : Nibble) (b : Byte) : (s.setV x b).px = s.px := rfl
@[simp] theorem State.setV_keysHeld (s : State) (x : Nibble) (b : Byte) : (s.setV x b).keysHeld = s.keysHeld := rfl
@[simp] theorem State.setV_keysNew (s : State) (x : Nibble) (b : Byte) : (s.setV x b).keysNew = s.keysNew := rfl
@[simp] theorem State.setV_bufPress (s : State) (x : Nibble) (b : Byte) : (s.setV x b).bufPress = s.bufPress := rfl
@[simp] theorem State.setV_bufRelease (s : State) (x : Nibble) (b : Byte) : (s.setV x b).bufRelease = s.bufRelease := rfl
@[simp] theorem State.setV_tickCtr (s : State) (x : Nibble) (b : Byte) : (s.setV x b).tickCtr = s.tickCtr := rfl
@[simp] theorem State.setV_run (s : State) (x : Nibble) (b : Byte) : (s.setV x b).run = s.run := rfl
@[simp] theorem State.setV_fault (s : State) (x : Nibble) (b : Byte) : (s.setV x b).fault = s.fault := rfl
@[simp] theorem State.setV_cfg (s : State) (x : Nibble) (b : Byte) : (s.setV x b).cfg = s.cfg := rfl
@[simp] theorem State.setV_randomCtr (s : State) (x : Nibble) (b : Byte) : (s.setV x b).randomCtr = s.randomCtr := rfl
@[simp] theorem State.setV_hostInputs (s : State) (x : Nibble) (b : Byte) : (s.setV x b).hostInputs = s.hostInputs := rfl
@[simp] theorem State.setV_frames (s : State) (x : Nibble) (b : Byte) : (s.setV x b).frames = s.frames := rfl
@[simp] theorem State.setV_byte (s : State) (x : Nibble) (b : Byte) (i : Nat) : (s.setV x b).byte i = s.byte i := rfl

/-! State.setFlag -/

@[simp] theorem State.setFlag_iReg (s : State) (c : Bool) : (s.setFlag c).iReg = s.iReg := rfl
@[simp] theorem State.setFlag_pc (s : State) (c : Bool) : (s.setFlag c).pc = s.pc := rfl
@[simp] theorem State.setFlag_sp (s : State) (c : Bool) : (s.setFlag c).sp = s.sp := rfl
@[simp] theorem State.setFlag_stack (s : State) (c : Bool) : (s.setFlag c).stack = s.stack := rfl
@[simp] theorem State.setFlag_dt (s : State) (c : Bool) : (s.setFlag c).dt = s.dt := rfl
@[simp] theorem State.setFlag_st (s : State) (c : Bool) : (s.setFlag c).st = s.st := rfl
@[simp] theorem State.setFlag_mem (s : State) (c : Bool) : (s.setFlag c).mem = s.mem := rfl
@[simp] theorem State.setFlag_px (s : State) (c : Bool) : (s.setFlag c).px = s.px := rfl
@[simp] theorem State.setFlag_keysHeld (s : State) (c : Bool) : (s.setFlag c).keysHeld = s.keysHeld := rfl
@[simp] theorem State.setFlag_keysNew (s : State) (c : Bool) : (s.setFlag c).keysNew = s.keysNew := rfl
@[simp] theorem State.setFlag_bufPress (s : State) (c : Bool) : (s.setFlag c).bufPress = s.bufPress := rfl
@[simp] theorem State.setFlag_bufRelease (s : State) (c : Bool) : (s.setFlag c).bufRelease = s.bufRelease := rfl
@[simp] theorem State.setFlag_tickCtr (s : State) (c : Bool) : (s.setFlag c).tickCtr = s.tickCtr := rfl
@[simp] theorem State.setFlag_run (s : State) (c : Bool) : (s.setFlag c).run = s.run := rfl
@[simp] theorem State.setFlag_fault (s : State) (c : Bool) : (s.setFlag c).fault = s.fault := rfl
@[simp] theorem State.setFlag_cfg (s : State) (c : Bool) : (s.setFlag c).cfg = s.cfg := rfl
@[simp] theorem State.setFlag_randomCtr (s : State) (c : Bool) : (s.setFlag c).randomCtr = s.randomCtr := rfl
@[simp] theorem State.setFlag_hostInputs (s : State) (c : Bool) : (s.setFlag c).hostInputs = s.hostInputs := rfl
@[simp] theorem State.setFlag_frames (s : State) (c : Bool) : (s.setFlag c).frames = s.frames := rfl
@[simp] theorem State.setFlag_byte (s : State) (c : Bool) (i : Nat) : (s.setFlag c).byte i = s.byte i := rfl

/-! State.loadRegs -/

@[simp] theorem State.loadRegs_iReg (s : State) (x : Nibble) (a : Nat) : (s.loadRegs x a).iReg = s.iReg := rfl
@[simp] theorem State.loadRegs_pc (s : State) (x : Nibble) (a : Nat) : (s.loadRegs x a).pc = s.pc := rfl
@[simp] theorem State.loadRegs_sp (s : State) (x : Nibble) (a : Nat) : (s.loadRegs x a).sp = s.sp := rfl
@[simp] theorem State.loadRegs_stack (s : State) (x : Nibble) (a : Nat) : (s.loadRegs x a).stack = s.stack := rfl
@[simp] theorem State.loadRegs_dt (s : State) (x : Nibble) (a : Nat) : (s.loadRegs x a).dt = s.dt := rfl
@[simp] theorem State.loadRegs_st (s : State) (x : Nibble) (a : Nat) : (s.loadRegs x a).st = s.st := rfl
@[simp] theorem State.loadRegs_mem (s : State) (x : Nibble) (a : Nat) : (s.loadRegs x a).mem = s.mem := rfl
@[simp] theorem State.loadRegs_px (s : State) (x : Nibble) (a : Nat) : (s.loadRegs x a).px = s.px := rfl
@[simp] theorem State.loadRegs_keysHeld (s : State) (x : Nibble) (a : Nat) : (s.loadRegs x a).keysHeld = s.keysHeld := rfl
@[simp] theorem State.loadRegs_keysNew (s : State) (x : Nibble) (a : Nat) : (s.loadRegs x a).keysNew = s.keysNew := rfl
@[simp] theorem State.loadRegs_bufPress (s : State) (x : Nibble) (a : Nat) : (s.loadRegs x a).bufPress = s.bufPress := rfl
@[simp] theorem State.loadRegs_bufRelease (s : State) (x : Nibble) (a : Nat) : (s.loadRegs x a).bufRelease = s.bufRelease := rfl
@[simp] theorem State.loadRegs_tickCtr (s : State) (x : Nibble) (a : Nat) : (s.loadRegs x a).tickCtr = s.tickCtr := rfl
@[simp] theorem State.loadRegs_run (s : State) (x : Nibble) (a : Nat) : (s.loadRegs x a).run = s.run := rfl
@[simp] theorem State.loadRegs_fault (s : State) (x : Nibble) (a : Nat) : (s.loadRegs x a).fault = s.fault := rfl
@[simp] theorem State.loadRegs_cfg (s : State) (x : Nibble) (a : Nat) : (s.loadRegs x a).cfg = s.cfg := rfl
@[simp] theorem State.loadRegs_randomCtr (s : State) (x : Nibble) (a : Nat) : (s.loadRegs x a).randomCtr = s.randomCtr := rfl
@[simp] theorem State.loadRegs_hostInputs (s : State) (x : Nibble) (a : Nat) : (s.loadRegs x a).hostInputs = s.hostInputs := rfl
@[simp] theorem State.loadRegs_frames (s : State) (x : Nibble) (a : Nat) : (s.loadRegs x a).frames = s.frames := rfl
@[simp] theorem State.loadRegs_byte (s : State) (x : Nibble) (a : Nat) (i : Nat) : (s.loadRegs x a).byte i = s.byte i := rfl

/-! State.setI -/

@[simp] theorem State.setI_regs (s : State) (a : Word) : (s.setI a).regs = s.regs := rfl
@[simp] theorem State.setI_iReg (s : State) (a : Word) : (s.setI a).iReg = a := rfl
@[simp] theorem State.setI_pc (s : State) (a : Word) : (s.setI a).pc = s.pc := rfl
@[simp] theorem State.setI_sp (s : State) (a : Word) : (s.setI a).sp = s.sp := rfl
@[simp] theorem State.setI_stack (s : State) (a : Word) : (s.setI a).stack = s.stack := rfl
@[simp] theorem State.setI_dt (s : State) (a : Word) : (s.setI a).dt = s.dt := rfl
@[simp] theorem State.setI_st (s : State) (a : Word) : (s.setI a).st = s.st := rfl
@[simp] theorem State.setI_mem (s : State) (a : Word) : (s.setI a).mem = s.mem := rfl
@[simp] theorem State.setI_px (s : State) (a : Word) : (s.setI a).px = s.px := rfl
@[simp] theorem State.setI_keysHeld (s : State) (a : Word) : (s.setI a).keysHeld = s.keysHeld := rfl
@[simp] theorem State.setI_keysNew (s : State) (a : Word) : (s.setI a).keysNew = s.keysNew := rfl
@[simp] theorem State.setI_bufPress (s : State) (a : Word) : (s.setI a).bufPress = s.bufPress := rfl
@[simp] theorem State.setI_bufRelease (s : State) (a : Word) : (s.setI a).bufRelease = s.bufRelease := rfl
@[simp] theorem State.setI_tickCtr (s : State) (a : Word) : (s.setI a).tickCtr = s.tickCtr := rfl
@[simp] theorem State.setI_run (s : State) (a : Word) : (s.setI a).run = s.run := rfl
@[simp] theorem State.setI_fault (s : State) (a : Word) : (s.setI a).fault = s.fault := rfl
@[simp] theorem State.setI_cfg (s : State) (a : Word) : (s.setI a).cfg = s.cfg := rfl
@[simp] theorem State.setI_randomCtr (s : State) (a : Word) : (s.setI a).randomCtr = s.randomCtr := rfl
@[simp] theorem State.setI_hostInputs (s : State) (a : Word) : (s.setI a).hostInputs = s.hostInputs := rfl
@[simp] theorem State.setI_frames (s : State) (a : Word) : (s.setI a).frames = s.frames := rfl
@[simp] theorem State.setI_v (s : State) (a : Word) (r : Nibble) : (s.setI a).v r = s.v r := rfl
@[simp] theorem State.setI_byte (s : State) (a : Word) (i : Nat) : (s.setI a).byte i = s.byte i := rfl

/-! State.setPc -/

@[simp] theorem State.setPc_regs (s : State) (a : Word) : (s.setPc a).regs = s.regs := rfl
@[simp] theorem State.setPc_iReg (s : State) (a : Word) : (s.setPc a).iReg = s.iReg := rfl
@[simp] theorem State.setPc_pc (s : State) (a : Word) : (s.setPc a).pc = a := rfl
@[simp] theorem State.setPc_sp (s : State) (a : Word) : (s.setPc a).sp = s.sp := rfl
@[simp] theorem State.setPc_stack (s : State) (a : Word) : (s.setPc a).stack = s.stack := rfl
@[simp] theorem State.setPc_dt (s : State) (a : Word) : (s.setPc a).dt = s.dt := rfl
@[simp] theorem State.setPc_st (s : State) (a : Word) : (s.setPc a).st = s.st := rfl
@[simp] theorem State.setPc_mem (s : State) (a : Word) : (s.setPc a).mem = s.mem := rfl
@[simp] theorem State.setPc_px (s : State) (a : Word) : (s.setPc a).px = s.px := rfl
@[simp] theorem State.setPc_keysHeld (s : State) (a : Word) : (s.setPc a).keysHeld = s.keysHeld := rfl
@[simp] theorem State.setPc_keysNew (s : State) (a : Word) : (s.setPc a).keysNew = s.keysNew := rfl
@[simp] theorem State.setPc_bufPress (s : State) (a : Word) : (s.setPc a).bufPress = s.bufPress := rfl
@[simp] theorem State.setPc_bufRelease (s : State) (a : Word) : (s.setPc a).bufRelease = s.bufRelease := rfl
@[simp] theorem State.setPc_tickCtr (s : State) (a : Word) : (s.setPc a).tickCtr = s.tickCtr := rfl
@[simp] theorem State.setPc_run (s : State) (a : Word) : (s.setPc a).run = s.run := rfl
@[simp] theorem State.setPc_fault (s : State) (a : Word) : (s.setPc a).fault = s.fault := rfl
@[simp] theorem State.setPc_cfg (s : State) (a : Word) : (s.setPc a).cfg = s.cfg := rfl
@[simp] theorem State.setPc_randomCtr (s : State) (a : Word) : (s.setPc a).randomCtr = s.randomCtr := rfl
@[simp] theorem State.setPc_hostInputs (s : State) (a : Word) : (s.setPc a).hostInputs = s.hostInputs := rfl
@[simp] theorem State.setPc_frames (s : State) (a : Word) : (s.setPc a).frames = s.frames := rfl
@[simp] theorem State.setPc_v (s : State) (a : Word) (r : Nibble) : (s.setPc a).v r = s.v r := rfl
@[simp] theorem State.setPc_byte (s : State) (a : Word) (i : Nat) : (s.setPc a).byte i = s.byte i := rfl

/-! State.advance -/

@[simp] theorem State.advance_regs (s : State) : (s.advance).regs = s.regs := rfl
@[simp] theorem State.advance_iReg (s : State) : (s.advance).iReg = s.iReg := rfl
@[simp] theorem State.advance_pc (s : State) : (s.advance).pc = s.pc + 2 := rfl
@[simp] theorem State.advance_sp (s : State) : (s.advance).sp = s.sp := rfl
@[simp] theorem State.advance_stack (s : State) : (s.advance).stack = s.stack := rfl
@[simp] theorem State.advance_dt (s : State) : (s.advance).dt = s.dt := rfl
@[simp] theorem State.advance_st (s : State) : (s.advance).st = s.st := rfl
@[simp] theorem State.advance_mem (s : State) : (s.advance).mem = s.mem := rfl
@[simp] theorem State.advance_px (s : State) : (s.advance).px = s.px := rfl
@[simp] theorem State.advance_keysHeld (s : State) : (s.advance).keysHeld = s.keysHeld := rfl
@[simp] theorem State.advance_keysNew (s : State) : (s.advance).keysNew = s.keysNew := rfl
@[simp] theorem State.advance_bufPress (s : State) : (s.advance).bufPress = s.bufPress := rfl
@[simp] theorem State.advance_bufRelease (s : State) : (s.advance).bufRelease = s.bufRelease := rfl
@[simp] theorem State.advance_tickCtr (s : State) : (s.advance).tickCtr = s.tickCtr := rfl
@[simp] theorem State.advance_run (s : State) : (s.advance).run = s.run := rfl
@[simp] theorem State.advance_fault (s : State) : (s.advance).fault = s.fault := rfl
@[simp] theorem State.advance_cfg (s : State) : (s.advance).cfg = s.cfg := rfl
@[simp] theorem State.advance_randomCtr (s : State) : (s.advance).randomCtr = s.randomCtr := rfl
@[simp] theorem State.advance_hostInputs (s : State) : (s.advance).hostInputs = s.hostInputs := rfl
@[simp] theorem State.advance_frames (s : State) : (s.advance).frames = s.frames := rfl
@[simp] theorem State.advance_v (s : State) (r : Nibble) : (s.advance).v r = s.v r := rfl
@[simp] theorem State.advance_byte (s : State) (i : Nat) : (s.advance).byte i = s.byte i := rfl

/-! State.skip -/

@[simp] theorem State.skip_regs (s : State) : (s.skip).regs = s.regs := rfl
@[simp] theorem State.skip_iReg (s : State) : (s.skip).iReg = s.iReg := rfl
@[simp] theorem State.skip_pc (s : State) : (s.skip).pc = s.pc + 4 := rfl
@[simp] theorem State.skip_sp (s : State) : (s.skip).sp = s.sp := rfl
@[simp] theorem State.skip_stack (s : State) : (s.skip).stack = s.stack := rfl
@[simp] theorem State.skip_dt (s : State) : (s.skip).dt = s.dt := rfl
@[simp] theorem State.skip_st (s : State) : (s.skip).st = s.st := rfl
@[simp] theorem State.skip_mem (s : State) : (s.skip).mem = s.mem := rfl
@[simp] theorem State.skip_px (s : State) : (s.skip).px = s.px := rfl
@[simp] theorem State.skip_keysHeld (s : State) : (s.skip).keysHeld = s.keysHeld := rfl
@[simp] theorem State.skip_keysNew (s : State) : (s.skip).keysNew = s.keysNew := rfl
@[simp] theorem State.skip_bufPress (s : State) : (s.skip).bufPress = s.bufPress := rfl
@[simp] theorem State.skip_bufRelease (s : State) : (s.skip).bufRelease = s.bufRelease := rfl
@[simp] theorem State.skip_tickCtr (s : State) : (s.skip).tickCtr = s.tickCtr := rfl
@[simp] theorem State.skip_run (s : State) : (s.skip).run = s.run := rfl
@[simp] theorem State.skip_fault (s : State) : (s.skip).fault = s.fault := rfl
@[simp] theorem State.skip_cfg (s : State) : (s.skip).cfg = s.cfg := rfl
@[simp] theorem State.skip_randomCtr (s : State) : (s.skip).randomCtr = s.randomCtr := rfl
@[simp] theorem State.skip_hostInputs (s : State) : (s.skip).hostInputs = s.hostInputs := rfl
@[simp] theorem State.skip_frames (s : State) : (s.skip).frames = s.frames := rfl
@[simp] theorem State.skip_v (s : State) (r : Nibble) : (s.skip).v r = s.v r := rfl
@[simp] theorem State.skip_byte (s : State) (i : Nat) : (s.skip).byte i = s.byte i := rfl

/-! State.setDt -/

@[simp] theorem State.setDt_regs (s : State) (b : Byte) : (s.setDt b).regs = s.regs := rfl
@[simp] theorem State.setDt_iReg (s : State) (b : Byte) : (s.setDt b).iReg = s.iReg := rfl
@[simp] theorem State.setDt_pc (s : State) (b : Byte) : (s.setDt b).pc = s.pc := rfl
@[simp] theorem State.setDt_sp (s : State) (b : Byte) : (s.setDt b).sp = s.sp := rfl
@[simp] theorem State.setDt_stack (s : State) (b : Byte) : (s.setDt b).stack = s.stack := rfl
@[simp] theorem State.setDt_dt (s : State) (b : Byte) : (s.setDt b).dt = b := rfl
@[simp] theorem State.setDt_st (s : State) (b : Byte) : (s.setDt b).st = s.st := rfl
@[simp] theorem State.setDt_mem (s : State) (b : Byte) : (s.setDt b).mem = s.mem := rfl
@[simp] theorem State.setDt_px (s : State) (b : Byte) : (s.setDt b).px = s.px := rfl
@[simp] theorem State.setDt_keysHeld (s : State) (b : Byte) : (s.setDt b).keysHeld = s.keysHeld := rfl
@[simp] theorem State.setDt_keysNew (s : State) (b : Byte) : (s.setDt b).keysNew = s.keysNew := rfl
@[simp] theorem State.setDt_bufPress (s : State) (b : Byte) : (s.setDt b).bufPress = s.bufPress := rfl
@[simp] theorem State.setDt_bufRelease (s : State) (b : Byte) : (s.setDt b).bufRelease = s.bufRelease := rfl
@[simp] theorem State.setDt_tickCtr (s : State) (b : Byte) : (s.setDt b).tickCtr = s.tickCtr := rfl
@[simp] theorem State.setDt_run (s : State) (b : Byte) : (s.setDt b).run = s.run := rfl
@[simp] theorem State.setDt_fault (s : State) (b : Byte) : (s.setDt b).fault = s.fault := rfl
@[simp] theorem State.setDt_cfg (s : State) (b : Byte) : (s.setDt b).cfg = s.cfg := rfl
@[simp] theorem State.setDt_randomCtr (s : State) (b : Byte) : (s.setDt b).randomCtr = s.randomCtr := rfl
@[simp] theorem State.setDt_hostInputs (s : State) (b : Byte) : (s.setDt b).hostInputs = s.hostInputs := rfl
@[simp] theorem State.setDt_frames (s : State) (b : Byte) : (s.setDt b).frames = s.frames := rfl
@[simp] theorem State.setDt_v (s : State) (b : Byte) (r : Nibble) : (s.setDt b).v r = s.v r := rfl
@[simp] theorem State.setDt_byte (s : State) (b : Byte) (i : Nat) : (s.setDt b).byte i = s.byte i := rfl

/-! State.setSt -/

@[simp] theorem State.setSt_regs (s : State) (b : Byte) : (s.setSt b).regs = s.regs := rfl
@[simp] theorem State.setSt_iReg (s : State) (b : Byte) : (s.setSt b).iReg = s.iReg := rfl
@[simp] theorem State.setSt_pc (s : State) (b : Byte) : (s.setSt b).pc = s.pc := rfl
@[simp] theorem State.setSt_sp (s : State) (b : Byte) : (s.setSt b).sp = s.sp := rfl
@[simp] theorem State.setSt_stack (s : State) (b : Byte) : (s.setSt b).stack = s.stack := rfl
@[simp] theorem State.setSt_dt (s : State) (b : Byte) : (s.setSt b).dt = s.dt := rfl
@[simp] theorem State.setSt_st (s : State) (b : Byte) : (s.setSt b).st = b := rfl
@[simp] theorem State.setSt_mem (s : State) (b : Byte) : (s.setSt b).mem = s.mem := rfl
@[simp] theorem State.setSt_px (s : State) (b : Byte) : (s.setSt b).px = s.px := rfl
@[simp] theorem State.setSt_keysHeld (s : State) (b : Byte) : (s.setSt b).keysHeld = s.keysHeld := rfl
@[simp] theorem State.setSt_keysNew (s : State) (b : Byte) : (s.setSt b).keysNew = s.keysNew := rfl
@[simp] theorem State.setSt_bufPress (s : State) (b : Byte) : (s.setSt b).bufPress = s.bufPress := rfl
@[simp] theorem State.setSt_bufRelease (s : State) (b : Byte) : (s.setSt b).bufRelease = s.bufRelease := rfl
@[simp] theorem State.setSt_tickCtr (s : State) (b : Byte) : (s.setSt b).tickCtr = s.tickCtr := rfl
@[simp] theorem State.setSt_run (s : State) (b : Byte) : (s.setSt b).run = s.run := rfl
@[simp] theorem State.setSt_fault (s : State) (b : Byte) : (s.setSt b).fault = s.fault := rfl
@[simp] theorem State.setSt_cfg (s : State) (b : Byte) : (s.setSt b).cfg = s.cfg := rfl
@[simp] theorem State.setSt_randomCtr (s : State) (b : Byte) : (s.setSt b).randomCtr = s.randomCtr := rfl
@[simp] theorem State.setSt_hostInputs (s : State) (b : Byte) : (s.setSt b).hostInputs = s.hostInputs := rfl
@[simp] theorem State.setSt_frames (s : State) (b : Byte) : (s.setSt b).frames = s.frames := rfl
@[simp] theorem State.setSt_v (s : State) (b : Byte) (r : Nibble) : (s.setSt b).v r = s.v r := rfl
@[simp] theorem State.setSt_byte (s : State) (b : Byte) (i : Nat) : (s.setSt b).byte i = s.byte i := rfl

/-! State.push -/

@[simp] theorem State.push_regs (s : State) (a : Word) : (s.push a).regs = s.regs := rfl
@[simp] theorem State.push_iReg (s : State) (a : Word) : (s.push a).iReg = s.iReg := rfl
@[simp] theorem State.push_pc (s : State) (a : Word) : (s.push a).pc = s.pc := rfl
@[simp] theorem State.push_sp (s : State) (a : Word) : (s.push a).sp = s.sp + 1 := rfl
@[simp] theorem State.push_stack (s : State) (a : Word) : (s.push a).stack = s.stack.setIfInBounds s.sp.val a := rfl
@[simp] theorem State.push_dt (s : State) (a : Word) : (s.push a).dt = s.dt := rfl
@[simp] theorem State.push_st (s : State) (a : Word) : (s.push a).st = s.st := rfl
@[simp] theorem State.push_mem (s : State) (a : Word) : (s.push a).mem = s.mem := rfl
@[simp] theorem State.push_px (s : State) (a : Word) : (s.push a).px = s.px := rfl
@[simp] theorem State.push_keysHeld (s : State) (a : Word) : (s.push a).keysHeld = s.keysHeld := rfl
@[simp] theorem State.push_keysNew (s : State) (a : Word) : (s.push a).keysNew = s.keysNew := rfl
@[simp] theorem State.push_bufPress (s : State) (a : Word) : (s.push a).bufPress = s.bufPress := rfl
@[simp] theorem State.push_bufRelease (s : State) (a : Word) : (s.push a).bufRelease = s.bufRelease := rfl
@[simp] theorem State.push_tickCtr (s : State) (a : Word) : (s.push a).tickCtr = s.tickCtr := rfl
@[simp] theorem State.push_run (s : State) (a : Word) : (s.push a).run = s.run := rfl
@[simp] theorem State.push_fault (s : State) (a : Word) : (s.push a).fault = s.fault := rfl
@[simp] theorem State.push_cfg (s : State) (a : Word) : (s.push a).cfg = s.cfg := rfl
@[simp] theorem State.push_randomCtr (s : State) (a : Word) : (s.push a).randomCtr = s.randomCtr := rfl
@[simp] theorem State.push_hostInputs (s : State) (a : Word) : (s.push a).hostInputs = s.hostInputs := rfl
@[simp] theorem State.push_frames (s : State) (a : Word) : (s.push a).frames = s.frames := rfl
@[simp] theorem State.push_v (s : State) (a : Word) (r : Nibble) : (s.push a).v r = s.v r := rfl
@[simp] theorem State.push_byte (s : State) (a : Word) (i : Nat) : (s.push a).byte i = s.byte i := rfl

/-! State.drop -/

@[simp] theorem State.drop_regs (s : State) : (s.drop).regs = s.regs := rfl
@[simp] theorem State.drop_iReg (s : State) : (s.drop).iReg = s.iReg := rfl
@[simp] theorem State.drop_pc (s : State) : (s.drop).pc = s.pc := rfl
@[simp] theorem State.drop_sp (s : State) : (s.drop).sp = s.sp - 1 := rfl
@[simp] theorem State.drop_stack (s : State) : (s.drop).stack = s.stack := rfl
@[simp] theorem State.drop_dt (s : State) : (s.drop).dt = s.dt := rfl
@[simp] theorem State.drop_st (s : State) : (s.drop).st = s.st := rfl
@[simp] theorem State.drop_mem (s : State) : (s.drop).mem = s.mem := rfl
@[simp] theorem State.drop_px (s : State) : (s.drop).px = s.px := rfl
@[simp] theorem State.drop_keysHeld (s : State) : (s.drop).keysHeld = s.keysHeld := rfl
@[simp] theorem State.drop_keysNew (s : State) : (s.drop).keysNew = s.keysNew := rfl
@[simp] theorem State.drop_bufPress (s : State) : (s.drop).bufPress = s.bufPress := rfl
@[simp] theorem State.drop_bufRelease (s : State) : (s.drop).bufRelease = s.bufRelease := rfl
@[simp] theorem State.drop_tickCtr (s : State) : (s.drop).tickCtr = s.tickCtr := rfl
@[simp] theorem State.drop_run (s : State) : (s.drop).run = s.run := rfl
@[simp] theorem State.drop_fault (s : State) : (s.drop).fault = s.fault := rfl
@[simp] theorem State.drop_cfg (s : State) : (s.drop).cfg = s.cfg := rfl
@[simp] theorem State.drop_randomCtr (s : State) : (s.drop).randomCtr = s.randomCtr := rfl
@[simp] theorem State.drop_hostInputs (s : State) : (s.drop).hostInputs = s.hostInputs := rfl
@[simp] theorem State.drop_frames (s : State) : (s.drop).frames = s.frames := rfl
@[simp] theorem State.drop_v (s : State) (r : Nibble) : (s.drop).v r = s.v r := rfl
@[simp] theorem State.drop_byte (s : State) (i : Nat) : (s.drop).byte i = s.byte i := rfl

/-! State.store -/

@[simp] theorem State.store_regs (s : State) (a : Nat) (bs : List Byte) : (s.store a bs).regs = s.regs := rfl
@[simp] theorem State.store_iReg (s : State) (a : Nat) (bs : List Byte) : (s.store a bs).iReg = s.iReg := rfl
@[simp] theorem State.store_pc (s : State) (a : Nat) (bs : List Byte) : (s.store a bs).pc = s.pc := rfl
@[simp] theorem State.store_sp (s : State) (a : Nat) (bs : List Byte) : (s.store a bs).sp = s.sp := rfl
@[simp] theorem State.store_stack (s : State) (a : Nat) (bs : List Byte) : (s.store a bs).stack = s.stack := rfl
@[simp] theorem State.store_dt (s : State) (a : Nat) (bs : List Byte) : (s.store a bs).dt = s.dt := rfl
@[simp] theorem State.store_st (s : State) (a : Nat) (bs : List Byte) : (s.store a bs).st = s.st := rfl
@[simp] theorem State.store_mem (s : State) (a : Nat) (bs : List Byte) : (s.store a bs).mem = Memory.storeBytes s.mem a bs := rfl
@[simp] theorem State.store_px (s : State) (a : Nat) (bs : List Byte) : (s.store a bs).px = s.px := rfl
@[simp] theorem State.store_keysHeld (s : State) (a : Nat) (bs : List Byte) : (s.store a bs).keysHeld = s.keysHeld := rfl
@[simp] theorem State.store_keysNew (s : State) (a : Nat) (bs : List Byte) : (s.store a bs).keysNew = s.keysNew := rfl
@[simp] theorem State.store_bufPress (s : State) (a : Nat) (bs : List Byte) : (s.store a bs).bufPress = s.bufPress := rfl
@[simp] theorem State.store_bufRelease (s : State) (a : Nat) (bs : List Byte) : (s.store a bs).bufRelease = s.bufRelease := rfl
@[simp] theorem State.store_tickCtr (s : State) (a : Nat) (bs : List Byte) : (s.store a bs).tickCtr = s.tickCtr := rfl
@[simp] theorem State.store_run (s : State) (a : Nat) (bs : List Byte) : (s.store a bs).run = s.run := rfl
@[simp] theorem State.store_fault (s : State) (a : Nat) (bs : List Byte) : (s.store a bs).fault = s.fault := rfl
@[simp] theorem State.store_cfg (s : State) (a : Nat) (bs : List Byte) : (s.store a bs).cfg = s.cfg := rfl
@[simp] theorem State.store_randomCtr (s : State) (a : Nat) (bs : List Byte) : (s.store a bs).randomCtr = s.randomCtr := rfl
@[simp] theorem State.store_hostInputs (s : State) (a : Nat) (bs : List Byte) : (s.store a bs).hostInputs = s.hostInputs := rfl
@[simp] theorem State.store_frames (s : State) (a : Nat) (bs : List Byte) : (s.store a bs).frames = s.frames := rfl
@[simp] theorem State.store_v (s : State) (a : Nat) (bs : List Byte) (r : Nibble) : (s.store a bs).v r = s.v r := rfl

/-! State.setPx -/

@[simp] theorem State.setPx_regs (s : State) (g : Grid) : (s.setPx g).regs = s.regs := rfl
@[simp] theorem State.setPx_iReg (s : State) (g : Grid) : (s.setPx g).iReg = s.iReg := rfl
@[simp] theorem State.setPx_pc (s : State) (g : Grid) : (s.setPx g).pc = s.pc := rfl
@[simp] theorem State.setPx_sp (s : State) (g : Grid) : (s.setPx g).sp = s.sp := rfl
@[simp] theorem State.setPx_stack (s : State) (g : Grid) : (s.setPx g).stack = s.stack := rfl
@[simp] theorem State.setPx_dt (s : State) (g : Grid) : (s.setPx g).dt = s.dt := rfl
@[simp] theorem State.setPx_st (s : State) (g : Grid) : (s.setPx g).st = s.st := rfl
@[simp] theorem State.setPx_mem (s : State) (g : Grid) : (s.setPx g).mem = s.mem := rfl
@[simp] theorem State.setPx_px (s : State) (g : Grid) : (s.setPx g).px = g := rfl
@[simp] theorem State.setPx_keysHeld (s : State) (g : Grid) : (s.setPx g).keysHeld = s.keysHeld := rfl
@[simp] theorem State.setPx_keysNew (s : State) (g : Grid) : (s.setPx g).keysNew = s.keysNew := rfl
@[simp] theorem State.setPx_bufPress (s : State) (g : Grid) : (s.setPx g).bufPress = s.bufPress := rfl
@[simp] theorem State.setPx_bufRelease (s : State) (g : Grid) : (s.setPx g).bufRelease = s.bufRelease := rfl
@[simp] theorem State.setPx_tickCtr (s : State) (g : Grid) : (s.setPx g).tickCtr = s.tickCtr := rfl
@[simp] theorem State.setPx_run (s : State) (g : Grid) : (s.setPx g).run = s.run := rfl
@[simp] theorem State.setPx_fault (s : State) (g : Grid) : (s.setPx g).fault = s.fault := rfl
@[simp] theorem State.setPx_cfg (s : State) (g : Grid) : (s.setPx g).cfg = s.cfg := rfl
@[simp] theorem State.setPx_randomCtr (s : State) (g : Grid) : (s.setPx g).randomCtr = s.randomCtr := rfl
@[simp] theorem State.setPx_hostInputs (s : State) (g : Grid) : (s.setPx g).hostInputs = s.hostInputs := rfl
@[simp] theorem State.setPx_frames (s : State) (g : Grid) : (s.setPx g).frames = s.frames := rfl
@[simp] theorem State.setPx_v (s : State) (g : Grid) (r : Nibble) : (s.setPx g).v r = s.v r := rfl
@[simp] theorem State.setPx_byte (s : State) (g : Grid) (i : Nat) : (s.setPx g).byte i = s.byte i := rfl

/-! State.pushFrame -/

@[simp] theorem State.pushFrame_regs (s : State) : (s.pushFrame).regs = s.regs := rfl
@[simp] theorem State.pushFrame_iReg (s : State) : (s.pushFrame).iReg = s.iReg := rfl
@[simp] theorem State.pushFrame_pc (s : State) : (s.pushFrame).pc = s.pc := rfl
@[simp] theorem State.pushFrame_sp (s : State) : (s.pushFrame).sp = s.sp := rfl
@[simp] theorem State.pushFrame_stack (s : State) : (s.pushFrame).stack = s.stack := rfl
@[simp] theorem State.pushFrame_dt (s : State) : (s.pushFrame).dt = s.dt := rfl
@[simp] theorem State.pushFrame_st (s : State) : (s.pushFrame).st = s.st := rfl
@[simp] theorem State.pushFrame_mem (s : State) : (s.pushFrame).mem = s.mem := rfl
@[simp] theorem State.pushFrame_px (s : State) : (s.pushFrame).px = s.px := rfl
@[simp] theorem State.pushFrame_keysHeld (s : State) : (s.pushFrame).keysHeld = s.keysHeld := rfl
@[simp] theorem State.pushFrame_keysNew (s : State) : (s.pushFrame).keysNew = s.keysNew := rfl
@[simp] theorem State.pushFrame_bufPress (s : State) : (s.pushFrame).bufPress = s.bufPress := rfl
@[simp] theorem State.pushFrame_bufRelease (s : State) : (s.pushFrame).bufRelease = s.bufRelease := rfl
@[simp] theorem State.pushFrame_tickCtr (s : State) : (s.pushFrame).tickCtr = s.tickCtr := rfl
@[simp] theorem State.pushFrame_run (s : State) : (s.pushFrame).run = s.run := rfl
@[simp] theorem State.pushFrame_fault (s : State) : (s.pushFrame).fault = s.fault := rfl
@[simp] theorem State.pushFrame_cfg (s : State) : (s.pushFrame).cfg = s.cfg := rfl
@[simp] theorem State.pushFrame_randomCtr (s : State) : (s.pushFrame).randomCtr = s.randomCtr := rfl
@[simp] theorem State.pushFrame_hostInputs (s : State) : (s.pushFrame).hostInputs = s.hostInputs := rfl
@[simp] theorem State.pushFrame_frames (s : State) : (s.pushFrame).frames = s.px :: s.frames := rfl
@[simp] theorem State.pushFrame_v (s : State) (r : Nibble) : (s.pushFrame).v r = s.v r := rfl
@[simp] theorem State.pushFrame_byte (s : State) (i : Nat) : (s.pushFrame).byte i = s.byte i := rfl

/-! State.setRun -/

@[simp] theorem State.setRun_regs (s : State) (m : RunState) : (s.setRun m).regs = s.regs := rfl
@[simp] theorem State.setRun_iReg (s : State) (m : RunState) : (s.setRun m).iReg = s.iReg := rfl
@[simp] theorem State.setRun_pc (s : State) (m : RunState) : (s.setRun m).pc = s.pc := rfl
@[simp] theorem State.setRun_sp (s : State) (m : RunState) : (s.setRun m).sp = s.sp := rfl
@[simp] theorem State.setRun_stack (s : State) (m : RunState) : (s.setRun m).stack = s.stack := rfl
@[simp] theorem State.setRun_dt (s : State) (m : RunState) : (s.setRun m).dt = s.dt := rfl
@[simp] theorem State.setRun_st (s : State) (m : RunState) : (s.setRun m).st = s.st := rfl
@[simp] theorem State.setRun_mem (s : State) (m : RunState) : (s.setRun m).mem = s.mem := rfl
@[simp] theorem State.setRun_px (s : State) (m : RunState) : (s.setRun m).px = s.px := rfl
@[simp] theorem State.setRun_keysHeld (s : State) (m : RunState) : (s.setRun m).keysHeld = s.keysHeld := rfl
@[simp] theorem State.setRun_keysNew (s : State) (m : RunState) : (s.setRun m).keysNew = s.keysNew := rfl
@[simp] theorem State.setRun_bufPress (s : State) (m : RunState) : (s.setRun m).bufPress = s.bufPress := rfl
@[simp] theorem State.setRun_bufRelease (s : State) (m : RunState) : (s.setRun m).bufRelease = s.bufRelease := rfl
@[simp] theorem State.setRun_tickCtr (s : State) (m : RunState) : (s.setRun m).tickCtr = s.tickCtr := rfl
@[simp] theorem State.setRun_run (s : State) (m : RunState) : (s.setRun m).run = m := rfl
@[simp] theorem State.setRun_fault (s : State) (m : RunState) : (s.setRun m).fault = s.fault := rfl
@[simp] theorem State.setRun_cfg (s : State) (m : RunState) : (s.setRun m).cfg = s.cfg := rfl
@[simp] theorem State.setRun_randomCtr (s : State) (m : RunState) : (s.setRun m).randomCtr = s.randomCtr := rfl
@[simp] theorem State.setRun_hostInputs (s : State) (m : RunState) : (s.setRun m).hostInputs = s.hostInputs := rfl
@[simp] theorem State.setRun_frames (s : State) (m : RunState) : (s.setRun m).frames = s.frames := rfl
@[simp] theorem State.setRun_v (s : State) (m : RunState) (r : Nibble) : (s.setRun m).v r = s.v r := rfl
@[simp] theorem State.setRun_byte (s : State) (m : RunState) (i : Nat) : (s.setRun m).byte i = s.byte i := rfl

/-! State.raise -/

@[simp] theorem State.raise_regs (s : State) (c : Fatal) (w : Option Word) : (s.raise c w).regs = s.regs := rfl
@[simp] theorem State.raise_iReg (s : State) (c : Fatal) (w : Option Word) : (s.raise c w).iReg = s.iReg := rfl
@[simp] theorem State.raise_pc (s : State) (c : Fatal) (w : Option Word) : (s.raise c w).pc = s.pc := rfl
@[simp] theorem State.raise_sp (s : State) (c : Fatal) (w : Option Word) : (s.raise c w).sp = s.sp := rfl
@[simp] theorem State.raise_stack (s : State) (c : Fatal) (w : Option Word) : (s.raise c w).stack = s.stack := rfl
@[simp] theorem State.raise_dt (s : State) (c : Fatal) (w : Option Word) : (s.raise c w).dt = s.dt := rfl
@[simp] theorem State.raise_st (s : State) (c : Fatal) (w : Option Word) : (s.raise c w).st = s.st := rfl
@[simp] theorem State.raise_mem (s : State) (c : Fatal) (w : Option Word) : (s.raise c w).mem = s.mem := rfl
@[simp] theorem State.raise_px (s : State) (c : Fatal) (w : Option Word) : (s.raise c w).px = s.px := rfl
@[simp] theorem State.raise_keysHeld (s : State) (c : Fatal) (w : Option Word) : (s.raise c w).keysHeld = s.keysHeld := rfl
@[simp] theorem State.raise_keysNew (s : State) (c : Fatal) (w : Option Word) : (s.raise c w).keysNew = s.keysNew := rfl
@[simp] theorem State.raise_bufPress (s : State) (c : Fatal) (w : Option Word) : (s.raise c w).bufPress = s.bufPress := rfl
@[simp] theorem State.raise_bufRelease (s : State) (c : Fatal) (w : Option Word) : (s.raise c w).bufRelease = s.bufRelease := rfl
@[simp] theorem State.raise_tickCtr (s : State) (c : Fatal) (w : Option Word) : (s.raise c w).tickCtr = s.tickCtr := rfl
@[simp] theorem State.raise_run (s : State) (c : Fatal) (w : Option Word) : (s.raise c w).run = .halted := rfl
@[simp] theorem State.raise_fault (s : State) (c : Fatal) (w : Option Word) : (s.raise c w).fault = some (c.report s.pc w) := rfl
@[simp] theorem State.raise_cfg (s : State) (c : Fatal) (w : Option Word) : (s.raise c w).cfg = s.cfg := rfl
@[simp] theorem State.raise_randomCtr (s : State) (c : Fatal) (w : Option Word) : (s.raise c w).randomCtr = s.randomCtr := rfl
@[simp] theorem State.raise_hostInputs (s : State) (c : Fatal) (w : Option Word) : (s.raise c w).hostInputs = s.hostInputs := rfl
@[simp] theorem State.raise_frames (s : State) (c : Fatal) (w : Option Word) : (s.raise c w).frames = s.frames := rfl
@[simp] theorem State.raise_v (s : State) (c : Fatal) (w : Option Word) (r : Nibble) : (s.raise c w).v r = s.v r := rfl
@[simp] theorem State.raise_byte (s : State) (c : Fatal) (w : Option Word) (i : Nat) : (s.raise c w).byte i = s.byte i := rfl

/-! State.drawRandom -/

@[simp] theorem State.drawRandom_regs (s : State) : (s.drawRandom).regs = s.regs := rfl
@[simp] theorem State.drawRandom_iReg (s : State) : (s.drawRandom).iReg = s.iReg := rfl
@[simp] theorem State.drawRandom_pc (s : State) : (s.drawRandom).pc = s.pc := rfl
@[simp] theorem State.drawRandom_sp (s : State) : (s.drawRandom).sp = s.sp := rfl
@[simp] theorem State.drawRandom_stack (s : State) : (s.drawRandom).stack = s.stack := rfl
@[simp] theorem State.drawRandom_dt (s : State) : (s.drawRandom).dt = s.dt := rfl
@[simp] theorem State.drawRandom_st (s : State) : (s.drawRandom).st = s.st := rfl
@[simp] theorem State.drawRandom_mem (s : State) : (s.drawRandom).mem = s.mem := rfl
@[simp] theorem State.drawRandom_px (s : State) : (s.drawRandom).px = s.px := rfl
@[simp] theorem State.drawRandom_keysHeld (s : State) : (s.drawRandom).keysHeld = s.keysHeld := rfl
@[simp] theorem State.drawRandom_keysNew (s : State) : (s.drawRandom).keysNew = s.keysNew := rfl
@[simp] theorem State.drawRandom_bufPress (s : State) : (s.drawRandom).bufPress = s.bufPress := rfl
@[simp] theorem State.drawRandom_bufRelease (s : State) : (s.drawRandom).bufRelease = s.bufRelease := rfl
@[simp] theorem State.drawRandom_tickCtr (s : State) : (s.drawRandom).tickCtr = s.tickCtr := rfl
@[simp] theorem State.drawRandom_run (s : State) : (s.drawRandom).run = s.run := rfl
@[simp] theorem State.drawRandom_fault (s : State) : (s.drawRandom).fault = s.fault := rfl
@[simp] theorem State.drawRandom_cfg (s : State) : (s.drawRandom).cfg = s.cfg := rfl
@[simp] theorem State.drawRandom_randomCtr (s : State) : (s.drawRandom).randomCtr = s.randomCtr + 1 := rfl
@[simp] theorem State.drawRandom_hostInputs (s : State) : (s.drawRandom).hostInputs = s.hostInputs := rfl
@[simp] theorem State.drawRandom_frames (s : State) : (s.drawRandom).frames = s.frames := rfl
@[simp] theorem State.drawRandom_v (s : State) (r : Nibble) : (s.drawRandom).v r = s.v r := rfl
@[simp] theorem State.drawRandom_byte (s : State) (i : Nat) : (s.drawRandom).byte i = s.byte i := rfl

/-! State.mergeKeys -/

@[simp] theorem State.mergeKeys_regs (s : State) : (s.mergeKeys).regs = s.regs := rfl
@[simp] theorem State.mergeKeys_iReg (s : State) : (s.mergeKeys).iReg = s.iReg := rfl
@[simp] theorem State.mergeKeys_pc (s : State) : (s.mergeKeys).pc = s.pc := rfl
@[simp] theorem State.mergeKeys_sp (s : State) : (s.mergeKeys).sp = s.sp := rfl
@[simp] theorem State.mergeKeys_stack (s : State) : (s.mergeKeys).stack = s.stack := rfl
@[simp] theorem State.mergeKeys_dt (s : State) : (s.mergeKeys).dt = s.dt := rfl
@[simp] theorem State.mergeKeys_st (s : State) : (s.mergeKeys).st = s.st := rfl
@[simp] theorem State.mergeKeys_mem (s : State) : (s.mergeKeys).mem = s.mem := rfl
@[simp] theorem State.mergeKeys_px (s : State) : (s.mergeKeys).px = s.px := rfl
@[simp] theorem State.mergeKeys_keysHeld (s : State) : (s.mergeKeys).keysHeld = (s.keysHeld &&& ~~~(s.bufRelease &&& ~~~s.bufPress)) ||| s.bufPress := rfl
@[simp] theorem State.mergeKeys_keysNew (s : State) : (s.mergeKeys).keysNew = s.bufPress := rfl
@[simp] theorem State.mergeKeys_bufPress (s : State) : (s.mergeKeys).bufPress = 0 := rfl
@[simp] theorem State.mergeKeys_bufRelease (s : State) : (s.mergeKeys).bufRelease = s.bufRelease &&& s.bufPress := rfl
@[simp] theorem State.mergeKeys_tickCtr (s : State) : (s.mergeKeys).tickCtr = s.tickCtr := rfl
@[simp] theorem State.mergeKeys_run (s : State) : (s.mergeKeys).run = s.run := rfl
@[simp] theorem State.mergeKeys_fault (s : State) : (s.mergeKeys).fault = s.fault := rfl
@[simp] theorem State.mergeKeys_cfg (s : State) : (s.mergeKeys).cfg = s.cfg := rfl
@[simp] theorem State.mergeKeys_randomCtr (s : State) : (s.mergeKeys).randomCtr = s.randomCtr := rfl
@[simp] theorem State.mergeKeys_hostInputs (s : State) : (s.mergeKeys).hostInputs = s.hostInputs := rfl
@[simp] theorem State.mergeKeys_frames (s : State) : (s.mergeKeys).frames = s.frames := rfl
@[simp] theorem State.mergeKeys_v (s : State) (r : Nibble) : (s.mergeKeys).v r = s.v r := rfl
@[simp] theorem State.mergeKeys_byte (s : State) (i : Nat) : (s.mergeKeys).byte i = s.byte i := rfl

/-! hostPress -/

@[simp] theorem hostPress_regs (s : State) (k : Fin 16) : (hostPress k s).regs = s.regs := rfl
@[simp] theorem hostPress_iReg (s : State) (k : Fin 16) : (hostPress k s).iReg = s.iReg := rfl
@[simp] theorem hostPress_pc (s : State) (k : Fin 16) : (hostPress k s).pc = s.pc := rfl
@[simp] theorem hostPress_sp (s : State) (k : Fin 16) : (hostPress k s).sp = s.sp := rfl
@[simp] theorem hostPress_stack (s : State) (k : Fin 16) : (hostPress k s).stack = s.stack := rfl
@[simp] theorem hostPress_dt (s : State) (k : Fin 16) : (hostPress k s).dt = s.dt := rfl
@[simp] theorem hostPress_st (s : State) (k : Fin 16) : (hostPress k s).st = s.st := rfl
@[simp] theorem hostPress_mem (s : State) (k : Fin 16) : (hostPress k s).mem = s.mem := rfl
@[simp] theorem hostPress_px (s : State) (k : Fin 16) : (hostPress k s).px = s.px := rfl
@[simp] theorem hostPress_keysHeld (s : State) (k : Fin 16) : (hostPress k s).keysHeld = s.keysHeld := rfl
@[simp] theorem hostPress_keysNew (s : State) (k : Fin 16) : (hostPress k s).keysNew = s.keysNew := rfl
@[simp] theorem hostPress_bufPress (s : State) (k : Fin 16) : (hostPress k s).bufPress = s.bufPress ||| keyBit k := rfl
@[simp] theorem hostPress_bufRelease (s : State) (k : Fin 16) : (hostPress k s).bufRelease = s.bufRelease &&& ~~~keyBit k := rfl
@[simp] theorem hostPress_tickCtr (s : State) (k : Fin 16) : (hostPress k s).tickCtr = s.tickCtr := rfl
@[simp] theorem hostPress_run (s : State) (k : Fin 16) : (hostPress k s).run = s.run := rfl
@[simp] theorem hostPress_fault (s : State) (k : Fin 16) : (hostPress k s).fault = s.fault := rfl
@[simp] theorem hostPress_cfg (s : State) (k : Fin 16) : (hostPress k s).cfg = s.cfg := rfl
@[simp] theorem hostPress_randomCtr (s : State) (k : Fin 16) : (hostPress k s).randomCtr = s.randomCtr := rfl
@[simp] theorem hostPress_hostInputs (s : State) (k : Fin 16) : (hostPress k s).hostInputs = s.hostInputs := rfl
@[simp] theorem hostPress_frames (s : State) (k : Fin 16) : (hostPress k s).frames = s.frames := rfl
@[simp] theorem hostPress_v (s : State) (k : Fin 16) (r : Nibble) : (hostPress k s).v r = s.v r := rfl
@[simp] theorem hostPress_byte (s : State) (k : Fin 16) (i : Nat) : (hostPress k s).byte i = s.byte i := rfl

/-! hostRelease -/

@[simp] theorem hostRelease_regs (s : State) (k : Fin 16) : (hostRelease k s).regs = s.regs := rfl
@[simp] theorem hostRelease_iReg (s : State) (k : Fin 16) : (hostRelease k s).iReg = s.iReg := rfl
@[simp] theorem hostRelease_pc (s : State) (k : Fin 16) : (hostRelease k s).pc = s.pc := rfl
@[simp] theorem hostRelease_sp (s : State) (k : Fin 16) : (hostRelease k s).sp = s.sp := rfl
@[simp] theorem hostRelease_stack (s : State) (k : Fin 16) : (hostRelease k s).stack = s.stack := rfl
@[simp] theorem hostRelease_dt (s : State) (k : Fin 16) : (hostRelease k s).dt = s.dt := rfl
@[simp] theorem hostRelease_st (s : State) (k : Fin 16) : (hostRelease k s).st = s.st := rfl
@[simp] theorem hostRelease_mem (s : State) (k : Fin 16) : (hostRelease k s).mem = s.mem := rfl
@[simp] theorem hostRelease_px (s : State) (k : Fin 16) : (hostRelease k s).px = s.px := rfl
@[simp] theorem hostRelease_keysHeld (s : State) (k : Fin 16) : (hostRelease k s).keysHeld = s.keysHeld := rfl
@[simp] theorem hostRelease_keysNew (s : State) (k : Fin 16) : (hostRelease k s).keysNew = s.keysNew := rfl
@[simp] theorem hostRelease_bufPress (s : State) (k : Fin 16) : (hostRelease k s).bufPress = s.bufPress := rfl
@[simp] theorem hostRelease_bufRelease (s : State) (k : Fin 16) : (hostRelease k s).bufRelease = s.bufRelease ||| keyBit k := rfl
@[simp] theorem hostRelease_tickCtr (s : State) (k : Fin 16) : (hostRelease k s).tickCtr = s.tickCtr := rfl
@[simp] theorem hostRelease_run (s : State) (k : Fin 16) : (hostRelease k s).run = s.run := rfl
@[simp] theorem hostRelease_fault (s : State) (k : Fin 16) : (hostRelease k s).fault = s.fault := rfl
@[simp] theorem hostRelease_cfg (s : State) (k : Fin 16) : (hostRelease k s).cfg = s.cfg := rfl
@[simp] theorem hostRelease_randomCtr (s : State) (k : Fin 16) : (hostRelease k s).randomCtr = s.randomCtr := rfl
@[simp] theorem hostRelease_hostInputs (s : State) (k : Fin 16) : (hostRelease k s).hostInputs = s.hostInputs := rfl
@[simp] theorem hostRelease_frames (s : State) (k : Fin 16) : (hostRelease k s).frames = s.frames := rfl
@[simp] theorem hostRelease_v (s : State) (k : Fin 16) (r : Nibble) : (hostRelease k s).v r = s.v r := rfl
@[simp] theorem hostRelease_byte (s : State) (k : Fin 16) (i : Nat) : (hostRelease k s).byte i = s.byte i := rfl

/-! State.timerStep -/

@[simp] theorem State.timerStep_regs (s : State) : s.timerStep.regs = s.regs := by
  unfold State.timerStep; split <;> rfl
@[simp] theorem State.timerStep_iReg (s : State) : s.timerStep.iReg = s.iReg := by
  unfold State.timerStep; split <;> rfl
@[simp] theorem State.timerStep_pc (s : State) : s.timerStep.pc = s.pc := by
  unfold State.timerStep; split <;> rfl
@[simp] theorem State.timerStep_sp (s : State) : s.timerStep.sp = s.sp := by
  unfold State.timerStep; split <;> rfl
@[simp] theorem State.timerStep_stack (s : State) : s.timerStep.stack = s.stack := by
  unfold State.timerStep; split <;> rfl
@[simp] theorem State.timerStep_mem (s : State) : s.timerStep.mem = s.mem := by
  unfold State.timerStep; split <;> rfl
@[simp] theorem State.timerStep_px (s : State) : s.timerStep.px = s.px := by
  unfold State.timerStep; split <;> rfl
@[simp] theorem State.timerStep_keysHeld (s : State) : s.timerStep.keysHeld = s.keysHeld := by
  unfold State.timerStep; split <;> rfl
@[simp] theorem State.timerStep_keysNew (s : State) : s.timerStep.keysNew = s.keysNew := by
  unfold State.timerStep; split <;> rfl
@[simp] theorem State.timerStep_bufPress (s : State) : s.timerStep.bufPress = s.bufPress := by
  unfold State.timerStep; split <;> rfl
@[simp] theorem State.timerStep_bufRelease (s : State) : s.timerStep.bufRelease = s.bufRelease := by
  unfold State.timerStep; split <;> rfl
@[simp] theorem State.timerStep_run (s : State) : s.timerStep.run = s.run := by
  unfold State.timerStep; split <;> rfl
@[simp] theorem State.timerStep_fault (s : State) : s.timerStep.fault = s.fault := by
  unfold State.timerStep; split <;> rfl
@[simp] theorem State.timerStep_cfg (s : State) : s.timerStep.cfg = s.cfg := by
  unfold State.timerStep; split <;> rfl
@[simp] theorem State.timerStep_randomCtr (s : State) : s.timerStep.randomCtr = s.randomCtr := by
  unfold State.timerStep; split <;> rfl
@[simp] theorem State.timerStep_hostInputs (s : State) : s.timerStep.hostInputs = s.hostInputs := by
  unfold State.timerStep; split <;> rfl
@[simp] theorem State.timerStep_frames (s : State) : s.timerStep.frames = s.frames := by
  unfold State.timerStep; split <;> rfl
@[simp] theorem State.timerStep_v (s : State) (r : Nibble) : s.timerStep.v r = s.v r := by simp [State.v]
@[simp] theorem State.timerStep_byte (s : State) (i : Nat) : s.timerStep.byte i = s.byte i := by simp [State.byte]

/-! State.reloadedAs -/

@[simp] theorem State.reloadedAs_regs (s loaded : State) : (s.reloadedAs loaded).regs = loaded.regs := rfl
@[simp] theorem State.reloadedAs_iReg (s loaded : State) : (s.reloadedAs loaded).iReg = loaded.iReg := rfl
@[simp] theorem State.reloadedAs_pc (s loaded : State) : (s.reloadedAs loaded).pc = loaded.pc := rfl
@[simp] theorem State.reloadedAs_sp (s loaded : State) : (s.reloadedAs loaded).sp = loaded.sp := rfl
@[simp] theorem State.reloadedAs_stack (s loaded : State) : (s.reloadedAs loaded).stack = loaded.stack := rfl
@[simp] theorem State.reloadedAs_dt (s loaded : State) : (s.reloadedAs loaded).dt = loaded.dt := rfl
@[simp] theorem State.reloadedAs_st (s loaded : State) : (s.reloadedAs loaded).st = loaded.st := rfl
@[simp] theorem State.reloadedAs_mem (s loaded : State) : (s.reloadedAs loaded).mem = loaded.mem := rfl
@[simp] theorem State.reloadedAs_px (s loaded : State) : (s.reloadedAs loaded).px = loaded.px := rfl
@[simp] theorem State.reloadedAs_keysHeld (s loaded : State) : (s.reloadedAs loaded).keysHeld = loaded.keysHeld := rfl
@[simp] theorem State.reloadedAs_keysNew (s loaded : State) : (s.reloadedAs loaded).keysNew = loaded.keysNew := rfl
@[simp] theorem State.reloadedAs_bufPress (s loaded : State) : (s.reloadedAs loaded).bufPress = loaded.bufPress := rfl
@[simp] theorem State.reloadedAs_bufRelease (s loaded : State) : (s.reloadedAs loaded).bufRelease = loaded.bufRelease := rfl
@[simp] theorem State.reloadedAs_tickCtr (s loaded : State) : (s.reloadedAs loaded).tickCtr = loaded.tickCtr := rfl
@[simp] theorem State.reloadedAs_run (s loaded : State) : (s.reloadedAs loaded).run = loaded.run := rfl
@[simp] theorem State.reloadedAs_fault (s loaded : State) : (s.reloadedAs loaded).fault = loaded.fault := rfl
@[simp] theorem State.reloadedAs_cfg (s loaded : State) : (s.reloadedAs loaded).cfg = loaded.cfg := rfl
@[simp] theorem State.reloadedAs_randomCtr (s loaded : State) : (s.reloadedAs loaded).randomCtr = s.randomCtr := rfl
@[simp] theorem State.reloadedAs_hostInputs (s loaded : State) : (s.reloadedAs loaded).hostInputs = s.hostInputs := rfl
@[simp] theorem State.reloadedAs_frames (s loaded : State) : (s.reloadedAs loaded).frames = s.frames := rfl
@[simp] theorem State.reloadedAs_v (s loaded : State) (r : Nibble) : (s.reloadedAs loaded).v r = loaded.v r := rfl
@[simp] theorem State.reloadedAs_byte (s loaded : State) (i : Nat) : (s.reloadedAs loaded).byte i = loaded.byte i := rfl

/-! Registers -/

/-- A register read after a register write (R20: no register is hardwired). -/
theorem State.setV_v (s : State) (x r : Nibble) (b : Byte) : (s.setV x b).v r = if r = x then b else s.v r := by
  simp only [State.v, State.setV, Vector.get_eq_getElem, Vector.getElem_set]
  by_cases h : r = x
  · simp [h]
  · have hn : x.toNat ≠ r.toNat := fun e => h (BitVec.eq_of_toNat_eq e.symm)
    simp [h, hn]

@[simp] theorem State.setV_v_same (s : State) (x : Nibble) (b : Byte) : (s.setV x b).v x = b := by
  simp [State.setV_v]

theorem State.setV_v_other (s : State) (x r : Nibble) (b : Byte) (h : r ≠ x) : (s.setV x b).v r = s.v r := by
  simp [State.setV_v, h]

/-- The flag write of R21 and R105 as a register write of `VF`. -/
theorem State.setFlag_v (s : State) (c : Bool) (r : Nibble) :
    (s.setFlag c).v r = if r = vfIndex then (if c then 1 else 0) else s.v r := by
  simp only [State.setFlag, State.setV_v]

/-- The block load of R155: `V[r]` for `r <= x` is the byte at `a + r`, every other register keeps its value. -/
theorem State.loadRegs_v (s : State) (x : Nibble) (a : Nat) (r : Nibble) :
    (s.loadRegs x a).v r = if r.toNat ≤ x.toNat then s.byte (a + r.toNat) else s.v r := by
  simp [State.v, State.loadRegs, Vector.get_eq_getElem]

/-! The stack -/

/-- After a push below the top, the entry at the old `SP` is the pushed value (R113). -/
theorem State.push_top (s : State) (a : Word) (h : s.sp ≠ 16) : (s.push a).top = a := by
  have hv : s.sp.val ≠ 16 := fun e => h (Fin.ext e)
  have hl := s.sp.isLt
  have h1 : (s.sp + 1).val = s.sp.val + 1 := by
    rw [Fin.val_add]; simp; omega
  simp [State.top, State.push, h1, Vector.getD, show s.sp.val < 16 by omega]

end Sys2Proof.Machine
end

