-- ==== Sys2Proof/Laws/Surface.lean ====
section
/-! SUPPORT. What the display surface's operations do (spec/45_display.md R160, R161): the pixel a flip changes, and that
every operation keeps the grid's shape. -/

namespace Sys2Proof.Machine

theorem Grid.shaped_iff (g : Grid) (w h : Nat) :
    Grid.shaped g w h = true ↔ g.length = h ∧ ∀ row ∈ g, row.length = w := by
  simp [Grid.shaped]

theorem Grid.blank_shaped (w h : Nat) : Grid.shaped (Grid.blank w h) w h = true := by
  rw [Grid.shaped_iff]
  refine ⟨by simp [Grid.blank], fun row hr => ?_⟩
  simp only [Grid.blank, List.mem_replicate] at hr
  simp [hr.2]

theorem Grid.clear_shaped (g : Grid) (w h : Nat) (hg : Grid.shaped g w h = true) :
    Grid.shaped (Grid.clear g) w h = true := by
  rw [Grid.shaped_iff] at hg ⊢
  refine ⟨by simp [Grid.clear, hg.1], fun row hr => ?_⟩
  simp only [Grid.clear, List.mem_map] at hr
  obtain ⟨r, hr, rfl⟩ := hr
  simp [hg.2 r hr]

theorem Grid.flip_shaped (g : Grid) (w h x y : Nat) (hg : Grid.shaped g w h = true) :
    Grid.shaped (Grid.flip g x y) w h = true := by
  rw [Grid.shaped_iff] at hg ⊢
  refine ⟨by simp [Grid.flip, hg.1], fun row hr => ?_⟩
  obtain ⟨i, hi, rfl⟩ := List.getElem_of_mem hr
  have hi' : i < g.length := by simpa [Grid.flip] using hi
  have hlen := hg.2 g[i] (List.getElem_mem hi')
  simp only [Grid.flip, List.getElem_modify]
  split <;> simp [hlen]

theorem Grid.get_blank (w h x y : Nat) : Grid.get (Grid.blank w h) x y = false := by
  simp only [Grid.get, Grid.blank, List.getD_eq_getElem?_getD, List.getElem?_replicate]
  split <;> simp [List.getElem?_replicate]
  split <;> simp

/-- Every pixel is false after a clear (R160). -/
theorem Grid.get_clear (g : Grid) (x y : Nat) : Grid.get (Grid.clear g) x y = false := by
  simp only [Grid.get, Grid.clear, List.getD_eq_getElem?_getD, List.getElem?_map]
  cases g[y]? with
  | none => simp
  | some row => simp only [Option.map_some, Option.getD_some, List.getElem?_map]; cases row[x]? <;> simp

/-- A flip inverts its own pixel, if the grid has it, and no other (R161). -/
theorem Grid.get_flip (g : Grid) (w h cx cy x y : Nat) (hg : Grid.shaped g w h = true) (hx : cx < w) (hy : cy < h) :
    Grid.get (Grid.flip g cx cy) x y = (Grid.get g x y ^^ decide (x = cx ∧ y = cy)) := by
  rw [Grid.shaped_iff] at hg
  simp only [Grid.get, Grid.flip, List.getD_eq_getElem?_getD, List.getElem?_modify]
  by_cases h2 : y = cy
  · subst h2
    have hlt : y < g.length := by omega
    have hrow := hg.2 g[y] (List.getElem_mem hlt)
    simp only [List.getElem?_eq_getElem hlt, if_true, Option.getD_some]
    by_cases h1 : x = cx
    · subst h1
      simp [List.getElem?_eq_getElem (show x < g[y].length by omega)]
    · simp [h1, Ne.symm h1]
  · simp [h2, Ne.symm h2]

theorem drawPixel_shaped (w h cx cy : Nat) (a : Grid × Bool) (ha : Grid.shaped a.1 w h = true) :
    Grid.shaped (drawPixel cx cy a).1 w h = true := Grid.flip_shaped a.1 w h cx cy ha

theorem drawRow_shaped (w h x0 y0 i : Nat) (row : Byte) (a : Grid × Bool) (ha : Grid.shaped a.1 w h = true) :
    Grid.shaped (drawRow w h x0 y0 i row a).1 w h = true := by
  unfold drawRow
  generalize List.range 8 = js
  induction js generalizing a with
  | nil => exact ha
  | cons j js ih =>
    rw [List.foldl_cons]
    apply ih
    split
    · exact drawPixel_shaped w h _ _ a ha
    · exact ha

theorem drawRows_shaped (w h x0 y0 : Nat) (rows : List Byte) (i : Nat) (a : Grid × Bool)
    (ha : Grid.shaped a.1 w h = true) : Grid.shaped (drawRows w h x0 y0 i rows a).1 w h = true := by
  induction rows generalizing i a with
  | nil => exact ha
  | cons row rows ih => exact ih (i + 1) _ (drawRow_shaped w h x0 y0 i row a ha)

/-- A draw keeps the grid's shape. -/
theorem Grid.draw_shaped (g : Grid) (w h x0 y0 : Nat) (rows : List Byte) (hg : Grid.shaped g w h = true) :
    Grid.shaped (Grid.draw g w h x0 y0 rows).1 w h = true :=
  drawRows_shaped w h x0 y0 rows 0 (g, false) hg

/-- A draw with no rows changes nothing and reports no collision (R163: `n` = 0). -/
theorem Grid.draw_nil (g : Grid) (w h x0 y0 : Nat) : Grid.draw g w h x0 y0 [] = (g, false) := rfl

end Sys2Proof.Machine
end

