-- ==== Sys2Proof/Laws/Ops.lean ====
section
/-! SUPPORT. Once for each shared operation, everything it can do: the range check, raising, the fetch, a guarded access,
the lowest new key (spec/20_memory.md R56, R57; spec/60_exceptions.md R186; spec/00_scope.md R6). -/

namespace Sys2Proof.Machine

/-! The range check -/

theorem outOfRange_none {base len : Nat} (h : len = 0 ∨ base + len ≤ 4096) : outOfRange base len = none := by
  simp [outOfRange, memSize, h]

theorem outOfRange_some {base len : Nat} (h0 : len ≠ 0) (h : 4096 < base + len) :
    outOfRange base len = some (max base 4096) := by
  simp [outOfRange, memSize, h0]; omega

theorem outOfRange_eq_none_iff (base len : Nat) : outOfRange base len = none ↔ len = 0 ∨ base + len ≤ 4096 := by
  by_cases h : len = 0 ∨ base + len ≤ 4096 <;> simp [outOfRange, memSize, h]

theorem outOfRange_eq_some {base len a : Nat} (h : outOfRange base len = some a) :
    len ≠ 0 ∧ 4096 < base + len ∧ a = max base 4096 := by
  by_cases hr : len = 0 ∨ base + len ≤ 4096
  · rw [outOfRange_none hr] at h; cases h
  · rw [outOfRange_some (by omega) (by omega)] at h
    cases h; omega

/-! A guarded access and raising -/

/-- In range the access happens (R56). -/
theorem withRange_inside (i : Instr) (len : Nat) (s done : State) (h : len = 0 ∨ s.iReg.toNat + len ≤ 4096) :
    withRange i len s done = .next done := by
  simp [withRange, outOfRange_none h]

/-- Out of range nothing happens but the raise, with the first address above 4095 (R56, R184). -/
theorem withRange_outside (i : Instr) (len : Nat) (s done : State) (h0 : len ≠ 0) (h : 4096 < s.iReg.toNat + len) :
    withRange i len s done = .next (s.raise (.outOfBounds (max s.iReg.toNat 4096)) (some (encode i))) := by
  simp [withRange, raiseIn, outOfRange_some h0 h]

/-- Everything a guarded access can answer. -/
theorem withRange_cases {i : Instr} {len : Nat} {s done t : State} (h : withRange i len s done = .next t) :
    (t = done ∧ (len = 0 ∨ s.iReg.toNat + len ≤ 4096)) ∨
    (t = s.raise (.outOfBounds (max s.iReg.toNat 4096)) (some (encode i)) ∧ len ≠ 0 ∧ 4096 < s.iReg.toNat + len) := by
  by_cases hr : len = 0 ∨ s.iReg.toNat + len ≤ 4096
  · rw [withRange_inside i len s done hr] at h
    cases h; exact .inl ⟨rfl, hr⟩
  · rw [withRange_outside i len s done (by omega) (by omega)] at h
    cases h; exact .inr ⟨rfl, by omega, by omega⟩

/-! The fetch -/

theorem fetch_inside (s : State) (h : s.pc.toNat ≤ 4094) :
    fetch s = .ok (wordOfBytes (s.byte s.pc.toNat) (s.byte (s.pc.toNat + 1))) := by
  simp [fetch, outOfRange_none (base := s.pc.toNat) (len := 2) (by omega)]

theorem fetch_outside (s : State) (h : 4095 ≤ s.pc.toNat) : fetch s = .error (.outOfBounds (max s.pc.toNat 4096)) := by
  simp [fetch, outOfRange_some (base := s.pc.toNat) (len := 2) (by omega) (by omega)]

/-! The lowest new key -/

/-- `lowest(m)` of a non-zero mask is its least set bit (R6). -/
theorem lowestKey_spec (m : Word) (h : m ≠ 0) :
    ∃ k, k < 16 ∧ m.getLsbD k = true ∧ (∀ j, j < k → m.getLsbD j = false) ∧ lowestKey m = BitVec.ofNat 8 k := by
  cases hf : (List.range 16).find? fun k => m.getLsbD k with
  | none =>
    exfalso; apply h
    apply BitVec.eq_of_getLsbD_eq; intro i hi
    have := List.find?_eq_none.mp hf i (List.mem_range.mpr hi)
    simpa using this
  | some k =>
    have hk : lowestKey m = BitVec.ofNat 8 k := by simp [lowestKey, hf]
    rw [List.find?_range_eq_some] at hf
    exact ⟨k, List.mem_range.mp hf.2.1, hf.1, fun j hj => by simpa using hf.2.2 j hj, hk⟩

/-! The host's input -/

/-- The delivery of a tick's host input changes at most the two key buffers, and uses the entry up (R91). -/
theorem State.deliver_eq (s : State) :
    ∃ p r, s.deliver = { s with bufPress := p, bufRelease := r, hostInputs := s.hostInputs.tail } := by
  unfold State.deliver
  generalize s.nextInput.events = es
  suffices h : ∀ u : State, ∃ p r, es.foldl applyEvent u = { u with bufPress := p, bufRelease := r } by
    obtain ⟨p, r, hp⟩ := h { s with hostInputs := s.hostInputs.tail }
    exact ⟨p, r, hp⟩
  induction es with
  | nil => exact fun u => ⟨u.bufPress, u.bufRelease, rfl⟩
  | cons e es ih =>
    intro u
    obtain ⟨p, r, hp⟩ := ih (applyEvent u e)
    refine ⟨p, r, ?_⟩
    rw [List.foldl_cons, hp]
    cases e <;> rfl

/-- With no host input pending nothing is delivered. -/
theorem State.deliver_nil (s : State) (h : s.hostInputs = []) : s.deliver = s := by
  cases s; simp_all [State.deliver, State.nextInput]

/-! Load -/

/-- A ROM that fits is loaded into the reset state (R210, R37). -/
theorem load_fits (c : Config) (glyphs : Vector Byte 80) (rom : List Byte) (h : rom.length ≤ 3584) :
    load c glyphs rom = .next { State.resetWith c with mem := loadImage c glyphs rom } := if_pos h

/-- A longer one is refused (R221). -/
theorem load_tooLong (c : Config) (glyphs : Vector Byte 80) (rom : List Byte) (h : 3584 < rom.length) :
    load c glyphs rom = .refused (.romTooLong rom.length) := if_neg (Nat.not_le.mpr h)

/-- A second load that fits: the loaded state, with what lies outside the core taken over (R222, log 33). -/
theorem hostLoad_fits (glyphs : Vector Byte 80) (rom : List Byte) (s : State) (h : rom.length ≤ 3584) :
    hostLoad glyphs rom s =
      .next (s.reloadedAs { State.resetWith s.cfg with mem := loadImage s.cfg glyphs rom }) := by
  rw [hostLoad, load_fits _ _ _ h]

theorem hostLoad_tooLong (glyphs : Vector Byte 80) (rom : List Byte) (s : State) (h : 3584 < rom.length) :
    hostLoad glyphs rom s = .refused (.romTooLong rom.length) := by
  rw [hostLoad, load_tooLong _ _ _ h]

end Sys2Proof.Machine
end

