-- ==== Sys2Proof/Laws/PerInstr.lean ====
section
/-! SUPPORT. One family of per-instruction laws: the word of an instruction has the fixed bits of its own row of the opcode
table (spec/30_encoding.md R74: "a word `w` selects the row when `w & mask = match`"). -/

namespace Sys2Proof.Laws

/-- The row's mask in R74. -/
def rowMask : Instr → Word
  | .cls | .ret => 0xFFFF#16
  | .sys _ | .jp _ | .call _ | .seImm _ _ | .sneImm _ _ | .ldImm _ _ | .addImm _ _ | .ldI _ | .jpV0 _ | .rnd _ _
  | .drw _ _ _ => 0xF000#16
  | .seReg _ _ | .ldReg _ _ | .orReg _ _ | .andReg _ _ | .xorReg _ _ | .addReg _ _ | .sub _ _ | .shr _ _ | .subn _ _
  | .shl _ _ | .sneReg _ _ => 0xF00F#16
  | .skp _ | .sknp _ | .ldVxDT _ | .ldVxK _ | .ldDTVx _ | .ldSTVx _ | .addI _ | .ldF _ | .ldB _ | .ldMemVx _
  | .ldVxMem _ => 0xF0FF#16

/-- The row's match in R74. -/
def rowMatch : Instr → Word
  | .cls => 0x00E0#16 | .ret => 0x00EE#16 | .sys _ => 0x0000#16 | .jp _ => 0x1000#16 | .call _ => 0x2000#16
  | .seImm _ _ => 0x3000#16 | .sneImm _ _ => 0x4000#16 | .seReg _ _ => 0x5000#16 | .ldImm _ _ => 0x6000#16
  | .addImm _ _ => 0x7000#16 | .ldReg _ _ => 0x8000#16 | .orReg _ _ => 0x8001#16 | .andReg _ _ => 0x8002#16
  | .xorReg _ _ => 0x8003#16 | .addReg _ _ => 0x8004#16 | .sub _ _ => 0x8005#16 | .shr _ _ => 0x8006#16
  | .subn _ _ => 0x8007#16 | .shl _ _ => 0x800E#16 | .sneReg _ _ => 0x9000#16 | .ldI _ => 0xA000#16
  | .jpV0 _ => 0xB000#16 | .rnd _ _ => 0xC000#16 | .drw _ _ _ => 0xD000#16 | .skp _ => 0xE09E#16
  | .sknp _ => 0xE0A1#16 | .ldVxDT _ => 0xF007#16 | .ldVxK _ => 0xF00A#16 | .ldDTVx _ => 0xF015#16
  | .ldSTVx _ => 0xF018#16 | .addI _ => 0xF01E#16 | .ldF _ => 0xF029#16 | .ldB _ => 0xF033#16
  | .ldMemVx _ => 0xF055#16 | .ldVxMem _ => 0xF065#16

/-- The family's statement: the instruction's word matches its row. -/
def TableRow.Statement (i : Instr) : Prop := encode i &&& rowMask i = rowMatch i

/-- Bitwise and, field by field, of two words in format XKK. -/
theorem formXkk_and (t x t' x' : Nibble) (k k' : Byte) :
    formXkk t x k &&& formXkk t' x' k' = formXkk (t &&& t') (x &&& x') (k &&& k') := by
  apply BitVec.eq_of_getLsbD_eq; intro i hi
  simp only [BitVec.getLsbD_and, formXkk_bit]
  split_ifs <;> rfl

/-- Bitwise and, field by field, of two words in format NNN. -/
theorem formNnn_and (t t' : Nibble) (a a' : Addr12) :
    formNnn t a &&& formNnn t' a' = formNnn (t &&& t') (a &&& a') := by
  apply BitVec.eq_of_getLsbD_eq; intro i hi
  simp only [BitVec.getLsbD_and, formNnn_bit]
  split_ifs <;> rfl

/-- Bitwise and of two bytes made of nibbles. -/
theorem nibbles_and (y n y' n' : Nibble) : ((y ++ n : Byte) &&& (y' ++ n' : Byte)) = ((y &&& y') ++ (n &&& n') : Byte) := by
  apply BitVec.eq_of_getLsbD_eq; intro i hi
  rw [BitVec.getLsbD_and, nibbles_bit, nibbles_bit, nibbles_bit]
  split_ifs <;> simp

theorem row_nnn (t : Nibble) (a : Addr12) : formNnn t a &&& 0xF000#16 = formNnn t 0 := by
  have h := formNnn_and t 0xF#4 a 0
  have e : formNnn 0xF#4 0 = 0xF000#16 := rfl
  have ht : t &&& 0xF#4 = t := BitVec.and_allOnes (x := t)
  rw [e, ht] at h; simpa using h

theorem row_xkk (t x : Nibble) (k : Byte) : formXkk t x k &&& 0xF000#16 = formXkk t 0 0 := by
  have h := formXkk_and t x 0xF#4 0 k 0
  have e : formXkk 0xF#4 0 0 = 0xF000#16 := rfl
  have ht : t &&& 0xF#4 = t := BitVec.and_allOnes (x := t)
  rw [e, ht] at h; simpa using h

theorem row_x (t x : Nibble) (k : Byte) : formXkk t x k &&& 0xF0FF#16 = formXkk t 0 k := by
  have h := formXkk_and t x 0xF#4 0 k 0xFF#8
  have e : formXkk 0xF#4 0 0xFF#8 = 0xF0FF#16 := rfl
  have ht : t &&& 0xF#4 = t := BitVec.and_allOnes (x := t)
  have hk : k &&& 0xFF#8 = k := BitVec.and_allOnes (x := k)
  rw [e, ht, hk] at h; simpa using h

theorem row_xy (t x y n : Nibble) : formXyn t x y n &&& 0xF00F#16 = formXyn t 0 0 n := by
  have h := formXkk_and t x 0xF#4 0 (y ++ n) (0#4 ++ 0xF#4)
  have e : formXkk 0xF#4 0 (0#4 ++ 0xF#4) = 0xF00F#16 := rfl
  have ht : t &&& 0xF#4 = t := BitVec.and_allOnes (x := t)
  have hn : n &&& 0xF#4 = n := BitVec.and_allOnes (x := n)
  rw [nibbles_and, e, ht, hn] at h; simpa [formXyn_eq] using h

theorem TableRow.cls : TableRow.Statement .cls := rfl
theorem TableRow.ret : TableRow.Statement .ret := rfl
theorem TableRow.sys (nnn : Addr12) : TableRow.Statement (.sys nnn) := row_nnn _ nnn
theorem TableRow.jp (nnn : Addr12) : TableRow.Statement (.jp nnn) := row_nnn _ nnn
theorem TableRow.call (nnn : Addr12) : TableRow.Statement (.call nnn) := row_nnn _ nnn
theorem TableRow.seImm (x : Nibble) (kk : Byte) : TableRow.Statement (.seImm x kk) := row_xkk _ x kk
theorem TableRow.sneImm (x : Nibble) (kk : Byte) : TableRow.Statement (.sneImm x kk) := row_xkk _ x kk
theorem TableRow.seReg (x y : Nibble) : TableRow.Statement (.seReg x y) := row_xy _ x y _
theorem TableRow.ldImm (x : Nibble) (kk : Byte) : TableRow.Statement (.ldImm x kk) := row_xkk _ x kk
theorem TableRow.addImm (x : Nibble) (kk : Byte) : TableRow.Statement (.addImm x kk) := row_xkk _ x kk
theorem TableRow.ldReg (x y : Nibble) : TableRow.Statement (.ldReg x y) := row_xy _ x y _
theorem TableRow.orReg (x y : Nibble) : TableRow.Statement (.orReg x y) := row_xy _ x y _
theorem TableRow.andReg (x y : Nibble) : TableRow.Statement (.andReg x y) := row_xy _ x y _
theorem TableRow.xorReg (x y : Nibble) : TableRow.Statement (.xorReg x y) := row_xy _ x y _
theorem TableRow.addReg (x y : Nibble) : TableRow.Statement (.addReg x y) := row_xy _ x y _
theorem TableRow.sub (x y : Nibble) : TableRow.Statement (.sub x y) := row_xy _ x y _
theorem TableRow.shr (x y : Nibble) : TableRow.Statement (.shr x y) := row_xy _ x y _
theorem TableRow.subn (x y : Nibble) : TableRow.Statement (.subn x y) := row_xy _ x y _
theorem TableRow.shl (x y : Nibble) : TableRow.Statement (.shl x y) := row_xy _ x y _
theorem TableRow.sneReg (x y : Nibble) : TableRow.Statement (.sneReg x y) := row_xy _ x y _
theorem TableRow.ldI (nnn : Addr12) : TableRow.Statement (.ldI nnn) := row_nnn _ nnn
theorem TableRow.jpV0 (nnn : Addr12) : TableRow.Statement (.jpV0 nnn) := row_nnn _ nnn
theorem TableRow.rnd (x : Nibble) (kk : Byte) : TableRow.Statement (.rnd x kk) := row_xkk _ x kk
theorem TableRow.drw (x y n : Nibble) : TableRow.Statement (.drw x y n) := row_xkk _ x (y ++ n)
theorem TableRow.skp (x : Nibble) : TableRow.Statement (.skp x) := row_x _ x _
theorem TableRow.sknp (x : Nibble) : TableRow.Statement (.sknp x) := row_x _ x _
theorem TableRow.ldVxDT (x : Nibble) : TableRow.Statement (.ldVxDT x) := row_x _ x _
theorem TableRow.ldVxK (x : Nibble) : TableRow.Statement (.ldVxK x) := row_x _ x _
theorem TableRow.ldDTVx (x : Nibble) : TableRow.Statement (.ldDTVx x) := row_x _ x _
theorem TableRow.ldSTVx (x : Nibble) : TableRow.Statement (.ldSTVx x) := row_x _ x _
theorem TableRow.addI (x : Nibble) : TableRow.Statement (.addI x) := row_x _ x _
theorem TableRow.ldF (x : Nibble) : TableRow.Statement (.ldF x) := row_x _ x _
theorem TableRow.ldB (x : Nibble) : TableRow.Statement (.ldB x) := row_x _ x _
theorem TableRow.ldMemVx (x : Nibble) : TableRow.Statement (.ldMemVx x) := row_x _ x _
theorem TableRow.ldVxMem (x : Nibble) : TableRow.Statement (.ldVxMem x) := row_x _ x _

end Sys2Proof.Laws
end

