-- ==== Sys2Proof/Tests/Slice0.lean ====
section
/-! SUPPORT. The model's own tests: decode words, one or two small steps per instruction, the tick, and a witness for the
hypotheses of each statement. Expected results are the spec's (spec/95_test_vectors.md; the group is named before each
block), never the model's own answers. -/

namespace Sys2Proof.Tests

open Sys2Proof.Machine

/-- The answer is a next state with the property. -/
def answers (o : Result) (p : State → Bool) : Bool :=
  match o with
  | .next t => p t
  | .fault _ => false
  | .refused _ => false

/-- Registers set one after another. -/
def withV (s : State) (l : List (Nibble × Byte)) : State := l.foldl (fun s p => s.setV p.1 p.2) s

/-- The reset state with `VF` = 0xAA (V-ALU) and the given registers. -/
def alu (l : List (Nibble × Byte)) : State := withV State.reset ((15, 0xAA) :: l)

/-- A test of one ALU instruction: `V[x]` and `VF` after it, and `pc` + 2. -/
def aluGives (i : Instr) (l : List (Nibble × Byte)) (x : Nibble) (b vf : Byte) : Bool :=
  answers (exec i (alu l)) fun t => t.v x == b && t.v 15 == vf && t.pc == 0x202

/-! ## V-DEC: one word of every row, written out by hand, and illegal words -/

theorem test_decode_groups_0_to_4 :
    decodeWord 0x00E0 = .ok .cls ∧ decodeWord 0x00EE = .ok .ret ∧ decodeWord 0x0000 = .ok (.sys 0x000) ∧
    decodeWord 0x00E1 = .ok (.sys 0x0E1) ∧ decodeWord 0x0FFF = .ok (.sys 0xFFF) ∧
    decodeWord 0x1ABC = .ok (.jp 0xABC) ∧ decodeWord 0x2F00 = .ok (.call 0xF00) ∧
    decodeWord 0x3A7F = .ok (.seImm 10 0x7F) ∧ decodeWord 0x4F01 = .ok (.sneImm 15 0x01) := by decide

theorem test_decode_groups_5_to_9 :
    decodeWord 0x5AB0 = .ok (.seReg 10 11) ∧ decodeWord 0x6A7F = .ok (.ldImm 10 0x7F) ∧
    decodeWord 0x70FF = .ok (.addImm 0 0xFF) ∧ decodeWord 0x8120 = .ok (.ldReg 1 2) ∧
    decodeWord 0x8121 = .ok (.orReg 1 2) ∧ decodeWord 0x8122 = .ok (.andReg 1 2) ∧
    decodeWord 0x8123 = .ok (.xorReg 1 2) ∧ decodeWord 0x8124 = .ok (.addReg 1 2) ∧
    decodeWord 0x8125 = .ok (.sub 1 2) ∧ decodeWord 0x8376 = .ok (.shr 3 7) ∧
    decodeWord 0x8AB7 = .ok (.subn 10 11) ∧ decodeWord 0x8ABE = .ok (.shl 10 11) ∧
    decodeWord 0x9AB0 = .ok (.sneReg 10 11) := by decide

theorem test_decode_groups_A_to_F :
    decodeWord 0xA123 = .ok (.ldI 0x123) ∧ decodeWord 0xB123 = .ok (.jpV0 0x123) ∧
    decodeWord 0xC3F0 = .ok (.rnd 3 0xF0) ∧ decodeWord 0xD125 = .ok (.drw 1 2 5) ∧
    decodeWord 0xE19E = .ok (.skp 1) ∧ decodeWord 0xE1A1 = .ok (.sknp 1) ∧
    decodeWord 0xF507 = .ok (.ldVxDT 5) ∧ decodeWord 0xF50A = .ok (.ldVxK 5) ∧
    decodeWord 0xF515 = .ok (.ldDTVx 5) ∧ decodeWord 0xF518 = .ok (.ldSTVx 5) ∧
    decodeWord 0xF51E = .ok (.addI 5) ∧ decodeWord 0xF529 = .ok (.ldF 5) ∧ decodeWord 0xF533 = .ok (.ldB 5) ∧
    decodeWord 0xF555 = .ok (.ldMemVx 5) ∧ decodeWord 0xF565 = .ok (.ldVxMem 5) := by decide

theorem test_decode_illegal :
    decodeWord 0x5AB1 = .error ⟨0x5AB1, 5, 1⟩ ∧ decodeWord 0x8AB8 = .error ⟨0x8AB8, 8, 8⟩ ∧
    decodeWord 0x8ABD = .error ⟨0x8ABD, 8, 0xD⟩ ∧ decodeWord 0x8ABF = .error ⟨0x8ABF, 8, 0xF⟩ ∧
    decodeWord 0x9ABF = .error ⟨0x9ABF, 9, 0xF⟩ ∧ decodeWord 0xE19F = .error ⟨0xE19F, 0xE, 0xF⟩ ∧
    decodeWord 0xE000 = .error ⟨0xE000, 0xE, 0⟩ ∧ decodeWord 0xF500 = .error ⟨0xF500, 0xF, 0⟩ ∧
    decodeWord 0xF575 = .error ⟨0xF575, 0xF, 5⟩ ∧ decodeWord 0xFFFF = .error ⟨0xFFFF, 0xF, 0xF⟩ := by decide

/-- Bytes are read high byte first, what is left over is returned, a lone byte is rejected (R53, R70). -/
theorem test_decode_bytes :
    decodeBytes [0x12, 0x34, 0x56] = .ok (.jp 0x234, [0x56]) ∧ decodeBytes [0x34, 0x12] = .ok (.seImm 4 0x12, []) ∧
    decodeBytes [0x12] = .error .truncated ∧ decodeTableWord 16 0xF533 = some (.ldB 5) ∧
    decodeTableWord 16 0x5121 = none := by decide

/-- WellFormed refuses the two words of group 0 that are not SYS (R74 row 3), and only them. -/
theorem test_wellFormed :
    WellFormed (.sys 0x0E0) = false ∧ WellFormed (.sys 0x0EE) = false ∧ WellFormed (.sys 0x0E1) = true := by decide

/-! ## V-CF: control flow -/

theorem test_sys : answers (exec (.sys 0x123) (State.reset.setPc 0x300)) (fun t => t.pc == 0x302) = true := by decide

theorem test_ret :
    answers (exec .ret ((State.reset.push 0x206).setPc 0x212)) (fun t => t.sp == 0 && t.pc == 0x206) = true := by decide

theorem test_ret_underflow :
    answers (exec .ret (State.reset.setPc 0x212)) (fun t => t.run == .halted && t.pc == 0x212 && t.sp == 0 &&
      t.fault == some ⟨.stackUnderflow, some 0x00EE, 0x212, none, none, none⟩) = true := by decide

theorem test_jp : answers (exec (.jp 0x201) State.reset) (fun t => t.pc == 0x201) = true := by decide

theorem test_call :
    answers (exec (.call 0x210) (State.reset.setPc 0x204))
      (fun t => t.stack[0] == 0x206 && t.sp == 1 && t.pc == 0x210) = true := by decide

/-- A state with all sixteen entries in use. -/
def full : State := { State.reset with sp := 16, pc := 0x204 }

theorem test_call_overflow :
    answers (exec (.call 0x210) full) (fun t => t.run == .halted && t.pc == 0x204 && t.sp == 16 &&
      t.fault == some ⟨.stackOverflow, some 0x2210, 0x204, none, none, none⟩) = true := by decide

theorem test_jpV0 :
    answers (exec (.jpV0 0xFFF) (withV State.reset [(0, 0xFF)])) (fun t => t.pc == 0x10FE) = true := by decide

/-! ## V-SKIP: skips, at pc = 0x200 -/

theorem test_seImm :
    answers (exec (.seImm 3 0x2A) (alu [(3, 0x2A)])) (fun t => t.pc == 0x204) = true ∧
    answers (exec (.seImm 3 0x2A) (alu [(3, 0x2B)])) (fun t => t.pc == 0x202) = true := by decide

theorem test_sneImm :
    answers (exec (.sneImm 3 0x2A) (alu [(3, 0x2A)])) (fun t => t.pc == 0x202) = true ∧
    answers (exec (.sneImm 3 0x2A) (alu [(3, 0x2B)])) (fun t => t.pc == 0x204) = true := by decide

theorem test_seReg :
    answers (exec (.seReg 1 2) (alu [(1, 7), (2, 7)])) (fun t => t.pc == 0x204) = true ∧
    answers (exec (.seReg 1 2) (alu [(1, 7), (2, 8)])) (fun t => t.pc == 0x202) = true := by decide

theorem test_sneReg :
    answers (exec (.sneReg 1 2) (alu [(1, 7), (2, 8)])) (fun t => t.pc == 0x204) = true ∧
    answers (exec (.sneReg 1 1) (alu [])) (fun t => t.pc == 0x202) = true := by decide

/-- A state with the given held keys and V4. -/
def keyed (held : Word) (v4 : Byte) : State := { alu [(4, v4)] with keysHeld := held }

theorem test_skp :
    answers (exec (.skp 4) (keyed 0x0020 5)) (fun t => t.pc == 0x204) = true ∧
    answers (exec (.skp 4) (keyed 0xFFFF 0x10)) (fun t => t.pc == 0x202) = true := by decide

theorem test_sknp :
    answers (exec (.sknp 4) (keyed 0x0020 5)) (fun t => t.pc == 0x202) = true ∧
    answers (exec (.sknp 4) (keyed 0xFFFF 0x15)) (fun t => t.pc == 0x204) = true := by decide

/-! ## V-ALU: loads, ALU, random -/

theorem test_ldImm : aluGives (.ldImm 10 0x7F) [] 10 0x7F 0xAA = true := by decide
theorem test_addImm : aluGives (.addImm 0 0x01) [(0, 0xFF)] 0 0x00 0xAA = true := by decide
theorem test_addImm_vf : aluGives (.addImm 15 2) [(15, 1)] 15 3 3 = true := by decide
theorem test_ldReg : aluGives (.ldReg 1 2) [(2, 0x33)] 1 0x33 0xAA = true := by decide
theorem test_or : aluGives (.orReg 1 2) [(1, 0xF0), (2, 0x0F)] 1 0xFF 0xAA = true := by decide
theorem test_and : aluGives (.andReg 1 2) [(1, 0xF3), (2, 0x3C)] 1 0x30 0xAA = true := by decide
theorem test_xor : aluGives (.xorReg 1 2) [(1, 0xFF), (2, 0x0F)] 1 0xF0 0xAA = true := by decide
theorem test_add_carry : aluGives (.addReg 1 2) [(1, 250), (2, 10)] 1 4 1 = true := by decide
theorem test_add_vf : aluGives (.addReg 15 1) [(15, 200), (1, 100)] 15 1 1 = true := by decide
theorem test_sub_borrow : aluGives (.sub 1 2) [(1, 5), (2, 10)] 1 251 0 = true := by decide
theorem test_sub_equal : aluGives (.sub 1 2) [(1, 7), (2, 7)] 1 0 0 = true := by decide
theorem test_shr : aluGives (.shr 3 7) [(3, 0xFF), (7, 0x12)] 3 0x7F 1 = true := by decide
theorem test_shr_vf : aluGives (.shr 15 0) [(15, 0x02)] 15 0 0 = true := by decide
theorem test_subn : aluGives (.subn 1 2) [(1, 10), (2, 5)] 1 251 0 = true := by decide
theorem test_subn_no_borrow : aluGives (.subn 1 2) [(1, 5), (2, 10)] 1 5 1 = true := by decide
theorem test_shl : aluGives (.shl 3 0) [(3, 0x81)] 3 0x02 1 = true := by decide
theorem test_shl_small : aluGives (.shl 3 0) [(3, 0x40)] 3 0x80 0 = true := by decide

/-- "rnd = any", mask 0 (V-ALU); the random byte itself is a free value. -/
theorem test_rnd_zero :
    ∃ t, exec (.rnd 5 0x00) State.reset = .next t ∧ t.v 5 = 0 ∧ t.pc = 0x202 ∧ t.randomCtr = 1 := by
  refine ⟨_, rfl, ?_, rfl, rfl⟩
  simp [State.writeResult, randomMasked]

/-! ## V-IDX: address register and memory -/

theorem test_ldI : answers (exec (.ldI 0x20C) State.reset) (fun t => t.iReg == 0x020C && t.pc == 0x202) = true := by
  decide

theorem test_addI :
    answers (exec (.addI 2) ((alu [(2, 0x01)]).setI 0x0FFF)) (fun t => t.iReg == 0x1000 && t.v 15 == 0xAA) = true ∧
    answers (exec (.addI 2) ((alu [(2, 0x02)]).setI 0xFFFF)) (fun t => t.iReg == 0x0001) = true := by decide

theorem test_ldF :
    answers (exec (.ldF 1) (alu [(1, 0x0A)])) (fun t => t.iReg == 0x0032) = true ∧
    answers (exec (.ldF 1) (alu [(1, 0x0F)])) (fun t => t.iReg == 0x004B) = true := by decide

/-- Above 15 the instruction still completes; its address is a free value (log 4). -/
theorem test_ldF_beyond :
    ∃ t, exec (.ldF 1) (alu [(1, 0x10)]) = .next t ∧ t.pc = 0x202 ∧
      t.iReg = Config.fontAddrBeyond defaultConfig 0x10 := ⟨_, rfl, rfl, rfl⟩

theorem test_ldB :
    answers (exec (.ldB 0) ((alu [(0, 123)]).setI 0xFFD))
      (fun t => t.byte 0xFFD == 1 && t.byte 0xFFE == 2 && t.byte 0xFFF == 3 && t.iReg == 0xFFD) = true := by decide

theorem test_ldB_outside :
    answers (exec (.ldB 1) ((alu [(1, 123)]).setI 0xFFE)) (fun t => t.run == .halted && t.byte 0xFFE == 0 &&
      t.fault == some ⟨.outOfBoundsMemoryAccess, some 0xF133, 0x200, none, none, some 4096⟩) = true := by decide

theorem test_ldMemVx :
    answers (exec (.ldMemVx 1) ((alu [(0, 0x12), (1, 0x08)]).setI 0x208))
      (fun t => t.byte 0x208 == 0x12 && t.byte 0x209 == 0x08 && t.byte 0x20A == 0 && t.iReg == 0x208) = true := by decide

theorem test_ldMemVx_edge :
    answers (exec (.ldMemVx 0) ((alu [(0, 0x77)]).setI 0xFFF)) (fun t => t.byte 0xFFF == 0x77) = true ∧
    answers (exec (.ldMemVx 1) ((alu [(0, 0x77)]).setI 0xFFF)) (fun t => t.run == .halted && t.byte 0xFFF == 0) = true := by
  decide

theorem test_ldVxMem :
    answers (exec (.ldVxMem 2) (((alu [(3, 0x99)]).store 0x300 [2, 5, 4]).setI 0x300))
      (fun t => t.v 0 == 2 && t.v 1 == 5 && t.v 2 == 4 && t.v 3 == 0x99 && t.iReg == 0x300) = true := by decide

theorem test_ldVxMem_vf :
    answers (exec (.ldVxMem 15) ((State.reset.store 15 [0x42]).setI 0)) (fun t => t.v 15 == 0x42 && t.v 0 == 0xF0) = true := by
  decide

/-! ## V-DRW, S4: display -/

/-- A core with a `w` × `h` display, V0 and V1 the coordinates, `I` at the sprite bytes at 0x300. -/
def drawer (w h : Nat) (x y : Byte) (rows : List Byte) : State :=
  ((withV (State.resetWith { defaultConfig with width := w, height := h }) [(0, x), (1, y)]).store 0x300 rows).setI 0x300

theorem test_cls :
    answers (exec .cls { State.reset with px := [[true, false], [true, true]] })
      (fun t => t.px == [[false, false], [false, false]] && t.frames == [[[false, false], [false, false]]]) = true := by decide

/-- S4: "given literal test: width=3,height=1, draw(x=2,y=0,row=[1,1]) ⇒ pixels [true,false,true]". -/
theorem test_drw_wrap :
    answers (exec (.drw 0 1 1) (drawer 3 1 2 0 [0xC0]))
      (fun t => t.px == [[true, false, true]] && t.v 15 == 0 && t.frames == [[[true, false, true]]]) = true := by decide

/-- `WIDTH` = 4, `HEIGHT` = 1: every pixel toggled twice, `VF` = 1 (D26). -/
theorem test_drw_twice_reached :
    answers (exec (.drw 0 1 1) (drawer 4 1 0 0 [0xFF]))
      (fun t => t.px == [[false, false, false, false]] && t.v 15 == 1) = true := by decide

/-! ## V-TMR, V-KEY: timers and keys -/

theorem test_ldVxDT : answers (exec (.ldVxDT 1) ((alu []).setDt 3)) (fun t => t.v 1 == 3) = true := by decide
theorem test_ldDTVx : answers (exec (.ldDTVx 0) (alu [(0, 3)])) (fun t => t.dt == 3) = true := by decide
theorem test_ldSTVx : answers (exec (.ldSTVx 2) (alu [(2, 0x10)])) (fun t => t.st == 16) = true := by decide

theorem test_ldVxK :
    answers (exec (.ldVxK 3) { State.reset with keysNew := 0x0028 }) (fun t => t.v 3 == 3 && t.pc == 0x202) = true ∧
    answers (exec (.ldVxK 3) State.reset) (fun t => t.run == .waitKey && t.pc == 0x200) = true := by decide

theorem test_timerStep :
    (({ State.reset with dt := 1, tickCtr := 8 } : State).timerStep.dt == 0) = true ∧
    (({ State.reset with dt := 1, tickCtr := 8 } : State).timerStep.st == 0) = true ∧
    (({ State.reset with dt := 3, tickCtr := 7 } : State).timerStep.dt == 3) = true := by decide

/-- The key masks after the host's events and one merge: held, new, release buffer. -/
def merged (s : State) (es : List KeyEvent) : State := (es.foldl applyEvent s).mergeKeys

theorem test_merge_press_release :
    let u := merged State.reset [.press 5, .release 5]
    (u.keysHeld, u.keysNew, u.bufRelease) = (0x0020, 0x0020, 0x0020) ∧
    (u.mergeKeys.keysHeld, u.mergeKeys.keysNew, u.mergeKeys.bufRelease) = (0, 0, 0) := by decide

theorem test_merge_two_keys :
    let u := merged State.reset [.press 1, .press 9, .release 1]
    (u.keysHeld, u.keysNew, u.bufRelease) = (0x0202, 0x0202, 0x0002) ∧
    (u.mergeKeys.keysHeld, u.mergeKeys.keysNew, u.mergeKeys.bufRelease) = (0x0200, 0, 0) := by decide

/-! ## V-STEP, P11: one tick event -/

/-- The reset state with a word at the given `pc`. -/
def at_ (pc : Word) (w : Nat) : State := (State.reset.setPc pc).withFetchWord 16 w

theorem test_step_fetch_order : answers (step (at_ 0x200 0x1234)) (fun t => t.pc == 0x234 && t.tickCtr == 1) = true := by
  decide

theorem test_step_pc_4095 :
    answers (step (State.reset.setPc 0xFFF)) (fun t => t.run == .halted && t.pc == 0xFFF && t.tickCtr == 1 &&
      t.fault == some ⟨.outOfBoundsMemoryAccess, none, 0xFFF, none, none, some 4096⟩) = true := by decide

/-- "steps 1, 2 stay", then DecodeError. -/
theorem test_step_illegal :
    answers (step { at_ 0x200 0x5121 with tickCtr := 8, dt := 2, bufPress := 0x0010 })
      (fun t => t.keysHeld == 0x0010 && t.tickCtr == 0 && t.dt == 1 && t.run == .halted && t.pc == 0x200 &&
        t.fault == some ⟨.decodeError, some 0x5121, 0x200, some 5, some 1, none⟩) = true := by decide

/-- "step 2: `tick_ctr` = 0, `DT` = 2; then `V[1]` = 2". -/
theorem test_step_timer_before_fetch :
    answers (step { at_ 0x200 0xF107 with tickCtr := 8, dt := 3 }) (fun t => t.v 1 == 2 && t.dt == 2) = true := by decide

theorem test_step_stop :
    answers (step { at_ 0x200 0x1234 with hostInputs := [⟨[], true⟩] })
      (fun t => t.run == .stopped && t.pc == 0x200 && t.tickCtr == 0) = true := by decide

/-- P11: waiting at 0x200 on F30A. -/
def waiting : State := (at_ 0x200 0xF30A).setRun .waitKey

theorem test_poll :
    answers (step { waiting with hostInputs := [⟨[.press 3, .press 5], false⟩], tickCtr := 1 })
      (fun t => t.v 3 == 3 && t.keysNew == 0x0028 && t.pc == 0x202 && t.run == .running && t.tickCtr == 1) = true ∧
    answers (step waiting) (fun t => t.run == .waitKey && t.pc == 0x200) = true := by decide

/-- A press while halted lands in the buffer and stays there (D33). -/
theorem test_step_halted :
    answers (step { State.reset with run := .halted, hostInputs := [⟨[.press 2], false⟩] })
      (fun t => t.run == .halted && t.bufPress == 0x0004 && t.keysHeld == 0) = true := by decide

/-! ## Reset and load -/

/-- The load of an empty ROM at the defaults lists nothing in memory (R37, log 8). -/
theorem test_load_default_image : loadImage defaultConfig conventionalGlyphs [] = [] := by decide +kernel

/-- R210: the first word is `rom[0] ++ rom[1]`; a table at another base leaves address 0 zero. -/
theorem test_load_other_base :
    answers (load { defaultConfig with fontBase := 432 } conventionalGlyphs [0x12, 0x00])
      (fun t => t.byte 512 == 0x12 && t.byte 513 == 0 && t.byte 432 == 0xF0 && t.byte 0 == 0) = true := by decide +kernel

/-- R222, and what lies outside the core is taken over (R35, log 33). -/
theorem test_reload :
    answers (hostLoad conventionalGlyphs [0x12, 0x00] { full with run := .halted, randomCtr := 7, frames := [[[true]]] })
      (fun t => t.run == .running && t.sp == 0 && t.pc == 512 && t.byte 512 == 0x12 && t.randomCtr == 7 &&
        t.frames == [[[true]]]) = true := by decide +kernel

/-! ## Witnesses: for each statement with hypotheses, states and operands that meet them, at the boundaries -/

theorem witness_DecodeReadsTheOpcodeMap_groups_0_to_9 :
    (0x0FFF#16 &&& 0xF000 = 0x0000#16 ∧ 0x0FFF#16 ≠ 0x00E0 ∧ 0x0FFF#16 ≠ 0x00EE) ∧ 0x1FFF#16 &&& 0xF000 = 0x1000#16 ∧
    0x2000#16 &&& 0xF000 = 0x2000#16 ∧ 0x3FFF#16 &&& 0xF000 = 0x3000#16 ∧ 0x4000#16 &&& 0xF000 = 0x4000#16 ∧
    0x5FF0#16 &&& 0xF00F = 0x5000#16 ∧ 0x6FFF#16 &&& 0xF000 = 0x6000#16 ∧ 0x7000#16 &&& 0xF000 = 0x7000#16 ∧
    0x8FF0#16 &&& 0xF00F = 0x8000#16 ∧ 0x8FF1#16 &&& 0xF00F = 0x8001#16 ∧ 0x8FF2#16 &&& 0xF00F = 0x8002#16 ∧
    0x8FF3#16 &&& 0xF00F = 0x8003#16 ∧ 0x8FF4#16 &&& 0xF00F = 0x8004#16 ∧ 0x8FF5#16 &&& 0xF00F = 0x8005#16 ∧
    0x8FF6#16 &&& 0xF00F = 0x8006#16 ∧ 0x8FF7#16 &&& 0xF00F = 0x8007#16 ∧ 0x8FFE#16 &&& 0xF00F = 0x800E#16 ∧
    0x9FF0#16 &&& 0xF00F = 0x9000#16 := by decide

theorem witness_DecodeReadsTheOpcodeMap_groups_A_to_F :
    0xAFFF#16 &&& 0xF000 = 0xA000#16 ∧ 0xB000#16 &&& 0xF000 = 0xB000#16 ∧ 0xCFFF#16 &&& 0xF000 = 0xC000#16 ∧
    0xDFFF#16 &&& 0xF000 = 0xD000#16 ∧ 0xEF9E#16 &&& 0xF0FF = 0xE09E#16 ∧ 0xEFA1#16 &&& 0xF0FF = 0xE0A1#16 ∧
    0xFF07#16 &&& 0xF0FF = 0xF007#16 ∧ 0xFF0A#16 &&& 0xF0FF = 0xF00A#16 ∧ 0xFF15#16 &&& 0xF0FF = 0xF015#16 ∧
    0xFF18#16 &&& 0xF0FF = 0xF018#16 ∧ 0xFF1E#16 &&& 0xF0FF = 0xF01E#16 ∧ 0xFF29#16 &&& 0xF0FF = 0xF029#16 ∧
    0xFF33#16 &&& 0xF0FF = 0xF033#16 ∧ 0xFF55#16 &&& 0xF0FF = 0xF055#16 ∧ 0xFF65#16 &&& 0xF0FF = 0xF065#16 := by decide

theorem witness_IllegalWordsAreRejected_groups :
    IllegalWord 0x500F ∧ IllegalWord 0x8008 ∧ IllegalWord 0x8FFD ∧ IllegalWord 0x800F ∧ IllegalWord 0x9001 ∧
    IllegalWord 0xE000 ∧ IllegalWord 0xFFFF := by simp [IllegalWord]

theorem witness_IllegalWordsAreRejected_legal :
    ¬ IllegalWord 0x0000 ∧ ¬ IllegalWord 0x5FF0 ∧ ¬ IllegalWord 0x800E ∧ ¬ IllegalWord 0xEFA1 ∧ ¬ IllegalWord 0xFF65 := by
  simp [IllegalWord]

theorem witness_DecodeOfEncodeIsTheInstruction :
    WellFormed (.sys 0xFFF) = true ∧ WellFormed (.drw 15 15 15) = true ∧ WellFormed (.ldVxMem 15) = true := by decide

theorem witness_EncodeOfDecodeIsTheWord :
    decodeWord 0x00EF = .ok (.sys 0x0EF) ∧ decodeWord 0xFF65 = .ok (.ldVxMem 15) := by decide

/-- An ALU word at the highest `pc` that can be fetched from (R57). -/
theorem witness_StepRunsTheDecodedInstruction :
    let s := at_ 0xFFE 0x8124
    FullTick s ∧ s.pc.toNat = 4094 ∧ decodeWord (s.byte 4094 ++ s.byte 4095) = .ok (.addReg 1 2) := by
  refine ⟨⟨rfl, rfl⟩, rfl, by decide⟩

theorem witness_IllegalWordHalts :
    let s := at_ 0xFFE 0x800F
    FullTick s ∧ s.pc.toNat = 4094 ∧ IllegalWord (s.byte 4094 ++ s.byte 4095) := by
  have h : (at_ 0xFFE 0x800F).byte 4094 ++ (at_ 0xFFE 0x800F).byte 4095 = 0x800F#16 := by decide
  refine ⟨⟨rfl, rfl⟩, rfl, ?_⟩
  simp only [h]; simp [IllegalWord]

/-- Both run states in which a stop request counts. -/
theorem witness_StopRequestStopsAtTickStart :
    ({ State.reset with hostInputs := [⟨[.press 0], true⟩] } : State).nextInput.stopReq = true ∧
    ({ waiting with hostInputs := [⟨[], true⟩] } : State).run = .waitKey ∧
    ({ waiting with hostInputs := [⟨[], true⟩] } : State).nextInput.stopReq = true := by decide

theorem witness_HaltedAndStoppedStay :
    (State.reset.setRun .halted).run = .halted ∧ (State.reset.setRun .stopped).run = .stopped ∧
    (State.reset.setRun .stopped).hostInputs = [] := by decide

/-- The poll with a new key at the highest `pc` that memory has, and the poll without one. -/
theorem witness_WaitPollTakesTheLowestNewKey :
    let s : State := { waiting.setPc 0xFFF with hostInputs := [⟨[.press 15], false⟩] }
    s.run = .waitKey ∧ s.nextInput.stopReq = false ∧ s.deliver.mergeKeys.keysNew ≠ 0 ∧ s.pc.toNat < 4096 ∧
    waiting.run = .waitKey ∧ waiting.nextInput.stopReq = false ∧ waiting.deliver.mergeKeys.keysNew = 0 := by decide

/-- The highest key, in a state where it is both pressed and to be released. -/
theorem witness_KeyEventsAndMergeBitByBit :
    let s : State := { State.reset with bufPress := 0x8000, bufRelease := 0x8000 }
    15 < 16 ∧ s.bufPress.getLsbD 15 = true ∧ s.bufRelease.getLsbD 15 = true := by decide

/-- A register other than the destination, at both ends. -/
theorem witness_AddImmediateAndLogic : (0#4 : Nibble) ≠ 15 ∧ (15#4 : Nibble) ≠ 0 := by decide

theorem witness_RandomIsMasked : (15#4 : Nibble) ≠ 5 := by decide

theorem witness_TimersCountDownEveryDivTicks :
    ({ State.reset with tickCtr := 8 } : State).tickCtr + 1 = 9 ∧
    ({ State.reset with tickCtr := 8 } : State).cfg.timerDiv = 9 ∧
    State.reset.tickCtr + 1 ≠ State.reset.cfg.timerDiv := by decide

theorem witness_RetPopsTheReturnAddress :
    (State.reset.push 0x206).sp.val ≠ 0 ∧ full.sp.val ≠ 0 := by decide

theorem witness_CallPushesTheNextAddress :
    State.reset.sp.val < 16 ∧ ({ full with sp := 15 } : State).sp.val < 16 := by decide

/-- The premise on the depth, and a state other than the called one that shares its stack. -/
theorem witness_RetAfterCallReturnsBehindTheCall :
    ({ full with sp := 15 } : State).sp.val < 16 ∧
    SameStack (State.reset.push 0x202) ((State.reset.push 0x202).setPc 0x300) := by
  exact ⟨by decide, rfl, rfl⟩

theorem witness_StackFatalConditions : full.sp.val = 16 ∧ State.reset.sp.val = 0 := by decide

theorem witness_RegisterSkips : (1#4 : Nibble) ≠ 0 ∧ (15#4 : Nibble) ≠ 0 := by decide

/-- Pressed, not pressed below 16, and above 15. -/
theorem witness_KeySkips :
    (((keyed 0x8000 15).v 4).toNat ≤ 15 ∧ (keyed 0x8000 15).keysHeld.getLsbD ((keyed 0x8000 15).v 4).toNat = true) ∧
    ¬ (((keyed 0x8000 14).v 4).toNat ≤ 15 ∧ (keyed 0x8000 14).keysHeld.getLsbD ((keyed 0x8000 14).v 4).toNat = true) ∧
    ¬ (((keyed 0xFFFF 16).v 4).toNat ≤ 15 ∧
        (keyed 0xFFFF 16).keysHeld.getLsbD ((keyed 0xFFFF 16).v 4).toNat = true) := by decide

/-- Both sides of the carry bound, and a destination other than VF. -/
theorem witness_AddSetsCarry :
    (14#4 : Nibble) ≠ 15 ∧ ((alu [(1, 255), (2, 1)]).v 1).toNat + ((alu [(1, 255), (2, 1)]).v 2).toNat > 255 ∧
    ¬ ((alu [(1, 255), (2, 0)]).v 1).toNat + ((alu [(1, 255), (2, 0)]).v 2).toNat > 255 := by decide

theorem witness_SubtractionsSetStrictFlag :
    (0#4 : Nibble) ≠ 15 ∧ ((alu [(1, 8), (2, 7)]).v 1).toNat > ((alu [(1, 8), (2, 7)]).v 2).toNat ∧
    ¬ ((alu [(1, 7), (2, 7)]).v 1).toNat > ((alu [(1, 7), (2, 7)]).v 2).toNat := by decide

theorem witness_ShiftsSetTheBitShiftedOut : (0#4 : Nibble) ≠ 15 ∧ (14#4 : Nibble) ≠ 15 := by decide

theorem witness_GlyphAddressOfDigit :
    let s : State := { alu [(1, 15)] with cfg := { defaultConfig with fontBase := 432 } }
    s.cfg.fontBase ≤ 432 ∧ (s.v 1).toNat ≤ 15 := by decide

theorem witness_BcdStoresThreeDigits :
    (State.reset.setI 0xFFD).iReg.toNat + 2 ≤ 4095 ∧ Memory.wf (State.reset.setI 0xFFD).mem = true := by decide

/-- One byte at 4095, and sixteen bytes ending there. -/
theorem witness_BlockStoreWritesRegisters :
    (State.reset.setI 0xFFF).iReg.toNat + (0#4 : Nibble).toNat ≤ 4095 ∧
    (State.reset.setI 0xFF0).iReg.toNat + (15#4 : Nibble).toNat ≤ 4095 ∧ Memory.wf (State.reset.setI 0xFF0).mem = true ∧
    (15#4 : Nibble).toNat ≤ (15#4 : Nibble).toNat := by decide

/-- Also a register the load leaves alone. -/
theorem witness_BlockLoadReadsRegisters :
    (State.reset.setI 0xFFF).iReg.toNat + (0#4 : Nibble).toNat ≤ 4095 ∧
    (State.reset.setI 0xFF0).iReg.toNat + (15#4 : Nibble).toNat ≤ 4095 ∧
    (0#4 : Nibble).toNat ≤ (0#4 : Nibble).toNat ∧ (0#4 : Nibble).toNat < (1#4 : Nibble).toNat := by decide

theorem witness_RangeFatalConditions_fetch :
    FullTick (State.reset.setPc 0xFFF) ∧ 4095 ≤ (State.reset.setPc 0xFFF).pc.toNat := ⟨⟨rfl, rfl⟩, by decide⟩

theorem witness_RangeFatalConditions_handlers :
    (1 ≤ (1#4 : Nibble).toNat ∧ (State.reset.setI 0x1000).iReg.toNat + (1#4 : Nibble).toNat - 1 > 4095) ∧
    (State.reset.setI 0xFFE).iReg.toNat + 2 > 4095 ∧
    (State.reset.setI 0xFFF).iReg.toNat + (1#4 : Nibble).toNat > 4095 := by decide

/-- No row at the highest `I`, and one row at the last byte of memory. -/
theorem witness_DrwDrawsTheSpriteBytes :
    (0#4 : Nibble).toNat = 0 ∧ (State.reset.setI 0xFFFF).iReg = 0xFFFF ∧
    (State.reset.setI 0xFFF).iReg.toNat + (1#4 : Nibble).toNat - 1 ≤ 4095 := by decide

/-- S4's 3 × 1 grid and a 1 × 1 one; a wrapped pixel reached once, one reached twice, and a grid of the last clause. -/
theorem witness_DrawIsXorWithCollision :
    Grid.shaped (Grid.blank 3 1) 3 1 = true ∧ spriteHits 3 1 2 0 [0xC0#8] 0 0 = 1 ∧
    Grid.shaped (Grid.blank 1 1) 1 1 = true ∧ Grid.shaped (Grid.blank 4 1) 4 1 = true ∧
    spriteHits 4 1 0 0 [0xFF#8] 3 0 = 2 ∧ [0x80#8].length ≤ 1 := by decide

/-- No pixel of S4's sprite is reached twice, one is set and one is clear; an all-false grid; a sprite of zeros. -/
theorem witness_DrawTwiceRestoresTheGrid :
    Grid.shaped [[true, false, false]] 3 1 = true ∧
    (∀ x, x < 3 → ∀ y, y < 1 → spriteHits 3 1 2 0 [0xC0#8] x y ≤ 1) ∧
    (spriteHits 3 1 2 0 [0xC0#8] 0 0 = 1 ∧ Grid.get [[true, false, false]] 0 0 = true) ∧
    (spriteHits 3 1 2 0 [0xC0#8] 2 0 = 1 ∧ Grid.get [[true, false, false]] 2 0 = false) ∧
    (∀ b ∈ List.replicate 15 (0#8 : Byte), b = 0) := by decide

/-- The premise over all coordinates, for the same sprite; outside the grid no pixel is reached. -/
theorem witness_DrawTwiceRestoresTheGrid_once : ∀ x y, spriteHits 3 1 2 0 [0xC0#8] x y ≤ 1 := by
  intro x y
  by_cases h : x < 3 ∧ y < 1
  · obtain ⟨hx, hy⟩ := h
    exact witness_DrawTwiceRestoresTheGrid.2.1 x hx y hy
  · have none_here : ∀ j, ¬ (x = (2 + j) % 3 ∧ y = 0) := fun j e => h ⟨by omega, by omega⟩
    simp [spriteHits, none_here, Nat.mod_one]

theorem witness_KeyWaitCompletesOrWaits :
    ({ State.reset with keysNew := 0x8000 } : State).keysNew ≠ 0 ∧ State.reset.keysNew = 0 := by decide

/-- The longest ROM that fits at the highest font base, and one byte more. -/
theorem witness_LoadLeavesTheResetState :
    (List.replicate 3584 (0#8 : Byte)).length ≤ 3584 ∧ (List.replicate 3585 (0#8 : Byte)).length > 3584 ∧
    Config.wf { defaultConfig with fontBase := 432 } = true := by
  exact ⟨by rw [List.length_replicate], by rw [List.length_replicate]; omega, by decide⟩

/-- Two different states with one set of arguments, and a ROM of length 0. -/
theorem witness_ReloadIsAFullReset :
    waiting.cfg = full.cfg ∧ waiting ≠ full ∧ ([] : List Byte).length ≤ 3584 := by decide

theorem witness_ReloadIsAFullReset_tooLong : (List.replicate 3585 (0#8 : Byte)).length > 3584 := by
  rw [List.length_replicate]; omega

/-- A state inside a subroutine with a key held. -/
def called : State := { (State.reset.push 0x206).setPc 0x210 with keysHeld := 0x0002, keysNew := 0x0002, tickCtr := 8 }

theorem called_inv : Inv called where
  cfg := by decide
  mem := by decide
  grid := by decide +kernel
  frames := by decide
  ctr := by decide
  keys := by decide
  stack := by decide
  pc := by decide
  fault := by decide
  wait := by decide

theorem waiting_inv : Inv waiting where
  cfg := by decide
  mem := by decide
  grid := by decide +kernel
  frames := by decide
  ctr := by decide
  keys := by decide
  stack := by decide
  pc := by decide
  fault := by decide
  wait := fun _ => ⟨by decide, 3, by decide⟩

theorem witness_StepKeepsTheInvariant :
    Inv called ∧ (∃ t, step called = .next t) ∧ Inv waiting ∧ (∃ t, step waiting = .next t) :=
  ⟨called_inv, ⟨_, rfl⟩, waiting_inv, ⟨_, rfl⟩⟩

theorem witness_InvariantStatesNeverGetStuck : Inv called ∧ Inv waiting := ⟨called_inv, waiting_inv⟩

theorem witness_HostActionsKeepTheInvariant :
    Inv called ∧ Config.wf { defaultConfig with width := 1, height := 1, timerDiv := 1 } = true ∧
    (List.replicate 3584 (0#8 : Byte)).length ≤ 3584 :=
  ⟨called_inv, by decide, by rw [List.length_replicate]⟩

theorem witness_EveryHandlerEndsInItsTick : State.reset.run = .running ∧ full.run = .running := by decide

/-- An instruction that advances, one that skips, one that waits. -/
theorem witness_OnlyFourHandlersSetPcDirectly :
    State.reset.run = .running ∧
    answers (exec (.sys 0) State.reset) (fun t => t.run == .running && t.pc == 0x202) = true ∧
    answers (exec (.seReg 1 1) State.reset) (fun t => t.run == .running && t.pc == 0x204) = true ∧
    answers (exec (.ldVxK 1) State.reset) (fun t => t.run != .running && t.pc == 0x200) = true := by decide

/-- A fetch outside memory, an illegal word, a handler's condition. -/
theorem witness_FatalConditionChangesNothingElse :
    FullTick (State.reset.setPc 0xFFF) ∧ answers (step (State.reset.setPc 0xFFF)) (fun t => t.run == .halted) = true ∧
    FullTick (at_ 0x200 0x5121) ∧ answers (step (at_ 0x200 0x5121)) (fun t => t.run == .halted) = true ∧
    FullTick (at_ 0x200 0x00EE) ∧ answers (step (at_ 0x200 0x00EE)) (fun t => t.run == .halted) = true ∧
    FullTick ((at_ 0x200 0xF033).setI 0xFFE) ∧
    answers (step ((at_ 0x200 0xF033).setI 0xFFE)) (fun t => t.run == .halted) = true :=
  ⟨⟨rfl, rfl⟩, by decide, ⟨rfl, rfl⟩, by decide, ⟨rfl, rfl⟩, by decide, ⟨rfl, rfl⟩, by decide⟩

/-- A flag writer, a draw that does not halt, and an instruction outside all the lists. -/
theorem witness_OnlySixInstructionsWriteVFAsFlag :
    answers (exec (.shl 15 0) (alu [])) (fun t => t.v 15 == 1) = true ∧
    answers (exec (.drw 0 1 1) (drawer 3 1 2 0 [0xC0])) (fun t => t.run != .halted) = true ∧
    answers (exec (.ldReg 14 15) (alu [])) (fun t => t.v 14 == 0xAA && t.v 15 == 0xAA) = true ∧
    (∀ y k, Instr.ldReg 14 15 ≠ .ldImm 15 k ∧ Instr.ldReg 14 15 ≠ .ldReg 15 y) := by
  exact ⟨by decide, by decide, by decide, fun y k => by simp⟩

theorem witness_EachStateHasItsOwnWriters :
    (∃ t, exec .cls State.reset = .next t) ∧ (∀ n, Instr.cls ≠ .call n) ∧ Instr.cls ≠ .ret ∧
    (∀ n, Instr.cls ≠ .ldI n) ∧ (∀ x, Instr.cls ≠ .ldB x ∧ Instr.cls ≠ .ldMemVx x) ∧
    (∃ t, exec .ret called = .next t) ∧ Instr.ret ≠ .cls ∧ (∀ x y n, Instr.ret ≠ .drw x y n) := by
  refine ⟨⟨_, rfl⟩, ?_, ?_, ?_, ?_, ⟨_, rfl⟩, ?_, ?_⟩ <;> simp

/-- A draw, so that the frame list grows over a list already there. -/
theorem witness_SoundTimerAndFramesAreNeverRead :
    answers (step { at_ 0x200 0x00E0 with frames := [[[true]]], st := 7 }) (fun t => t.frames.length == 2) = true := by
  decide

/-- One state for each premise on the run state. -/
theorem witness_RunStateTransitions :
    answers (step (State.reset.setRun .halted)) (fun t => t.run == .halted) = true ∧
    answers (step (State.reset.setRun .stopped)) (fun t => t.run == .stopped) = true ∧
    answers (step { waiting with hostInputs := [⟨[], true⟩] }) (fun t => t.run == .stopped) = true ∧
    answers (step (at_ 0x200 0xF30A)) (fun t => t.run == .waitKey) = true ∧
    answers (step { waiting with hostInputs := [⟨[.press 0], false⟩] }) (fun t => t.run == .running) = true := by decide

/-- The store ends at the last byte of memory. -/
theorem witness_StoredBytesAreFetchedNext :
    let s := ((alu [(0, 0x12), (1, 0x34)]).setPc 0xFFC).setI 0xFFE
    s.run = .running ∧ Memory.wf s.mem = true ∧ s.iReg = s.pc + 2 ∧ s.iReg.toNat + 1 ≤ 4095 ∧
    s.nextInput.stopReq = false ∧ decodeWord (s.v 0 ++ s.v 1) = .ok (.jp 0x234) := by decide

/-- No entry, an entry without an event, one that starts with a press, one that starts with a release. -/
theorem witness_DeliveryAppliesTheEventsInOrder :
    State.reset.hostInputs = [] ∧
    ({ State.reset with hostInputs := [⟨[], true⟩] } : State).hostInputs = { events := [], stopReq := true } :: [] ∧
    ({ State.reset with hostInputs := [⟨[.press 15, .release 0], false⟩] } : State).hostInputs =
      { events := .press 15 :: [.release 0], stopReq := false } :: [] ∧
    ({ State.reset with hostInputs := [⟨[.release 0], false⟩] } : State).hostInputs =
      { events := .release 0 :: [], stopReq := false } :: [] := by decide

end Sys2Proof.Tests
end

section
/-! PROOFS of what the host does between two ticks (spec/00_scope.md R8, spec/40_step_cycle.md R91,
spec/70_reset_and_hazards.md R210, R222): key events and a load keep the invariant of the machine. -/

namespace Sys2Proof

theorem Config.wf_iff (c : Config) :
    c.wf = true ↔ 1 ≤ c.width ∧ 1 ≤ c.height ∧ 1 ≤ c.timerDiv ∧ c.fontBase ≤ 432 := by
  simp [Config.wf, and_assoc]

end Sys2Proof

namespace Sys2Proof.Machine

/-! Key events: the invariant reads neither the key buffers nor the inputs still to come. -/

/-- The invariant holds with any key buffers and any coming inputs (R31, R91). -/
theorem Inv.withHostInput {s : State} (h : Inv s) (p r : Word) (inputs : List HostInput) :
    Inv { s with bufPress := p, bufRelease := r, hostInputs := inputs } :=
  { h with }

theorem hostPress_keeps_inv {s : State} (k : Fin 16) (h : Inv s) : Inv (hostPress k s) :=
  h.withHostInput _ _ s.hostInputs

theorem hostRelease_keeps_inv {s : State} (k : Fin 16) (h : Inv s) : Inv (hostRelease k s) :=
  h.withHostInput _ _ s.hostInputs

theorem deliver_keeps_inv {s : State} (h : Inv s) : Inv s.deliver := by
  obtain ⟨p, r, hs⟩ := s.deliver_eq
  rw [hs]
  exact h.withHostInput p r s.hostInputs.tail

/-! Load -/

/-- The glyph table ends at or below 512 and a ROM that fits ends at or below 4096, so each of the three stores of a load
lies inside memory (R27, R210, R221). -/
theorem loadImage_wf (c : Config) (glyphs : Vector Byte 80) (rom : List Byte) (hfont : c.fontBase ≤ 432)
    (hrom : rom.length ≤ 3584) : Memory.wf (loadImage c glyphs rom) = true := by
  refine Memory.storeBytes_wf _ _ _ (Memory.storeBytes_wf _ _ _ (Memory.storeBytes_wf _ _ _ rfl ?_) ?_) ?_
  · decide
  · simp only [Vector.length_toList, memSize]; omega
  · simp only [progBase, memSize]; omega

/-- The reset state (R37) with any memory in canonical form meets the invariant. -/
theorem resetWith_inv {c : Config} {m : Mem} (hc : c.wf = true) (hm : Memory.wf m = true) :
    Inv { State.resetWith c with mem := m } where
  cfg := hc
  mem := hm
  grid := Grid.blank_shaped c.width c.height
  frames := fun _ hg => nomatch hg
  ctr := by
    obtain ⟨-, -, htimer, -⟩ := (Config.wf_iff c).mp hc
    exact htimer
  keys := by simp [State.resetWith]
  stack := fun _ hk => absurd hk (Nat.not_lt_zero _)
  pc := by simp [State.resetWith, progBase]
  fault := by simp [State.resetWith]
  wait := fun hw => nomatch hw

theorem load_inv {c : Config} (glyphs : Vector Byte 80) {rom : List Byte} (hc : c.wf = true)
    (hrom : rom.length ≤ 3584) : Inv { State.resetWith c with mem := loadImage c glyphs rom } := by
  obtain ⟨-, -, -, hfont⟩ := (Config.wf_iff c).mp hc
  exact resetWith_inv hc (loadImage_wf c glyphs rom hfont hrom)

/-- What a second load takes over breaks nothing: the frames pushed so far have the shape of the unchanged arguments, and
the invariant does not read the rest (R222, log 33). -/
theorem Inv.reloadedAs {s u : State} (hs : Inv s) (hu : Inv u) (hcfg : u.cfg = s.cfg) : Inv (s.reloadedAs u) :=
  { hu with frames := fun g hg => by simpa [hcfg] using hs.frames g hg }

/-- Settles O50: key events change only fields the invariant does not read, and a load that fits gives the reset state
with a memory in canonical form. -/
theorem hostActionsKeepTheInvariant : Obligations.HostActionsKeepTheInvariant := by
  refine ⟨fun s k h => ?_, fun c glyphs rom hc hrom => ?_, fun s glyphs rom h hrom => ?_⟩
  · exact ⟨hostPress_keeps_inv k h, hostRelease_keeps_inv k h, deliver_keeps_inv h⟩
  · exact ⟨_, load_fits c glyphs rom hrom, load_inv glyphs hc hrom⟩
  · exact ⟨_, hostLoad_fits glyphs rom s hrom, h.reloadedAs (load_inv glyphs h.cfg hrom) rfl⟩

end Sys2Proof.Machine
end

section
/-! PROOFS of what one instruction and one tick event can do. `Effect` and `TickEffect` list the outcomes, and the two
inversion lemmas `exec_effect` and `step_effect` say that there are no others. -/

namespace Sys2Proof.Machine

/-! One instruction -/

/-- The six skips (spec/42_skips.md). -/
def IsSkip (i : Instr) : Prop :=
  (∃ x k, i = .seImm x k) ∨ (∃ x k, i = .sneImm x k) ∨ (∃ x y, i = .seReg x y) ∨ (∃ x y, i = .sneReg x y) ∨
  (∃ x, i = .skp x) ∨ (∃ x, i = .sknp x)

/-- `i` computes a value for its destination `x` alone and writes no flag (R130 to R135, R170, R171). -/
def LoadsRegister (i : Instr) (x : Nibble) : Prop :=
  ∃ y k, i = .ldImm x k ∨ i = .addImm x k ∨ i = .ldReg x y ∨ i = .orReg x y ∨ i = .andReg x y ∨ i = .xorReg x y ∨
    i = .ldVxDT x ∨ i = .ldVxK x

/-- `i` writes a result to `x` and then a flag to `VF` (R136 to R140). -/
def WritesFlagged (i : Instr) (x : Nibble) : Prop :=
  ∃ y, i = .addReg x y ∨ i = .sub x y ∨ i = .shr x y ∨ i = .subn x y ∨ i = .shl x y

/-- `i` writes `I` (R150 to R152). -/
def WritesIndex (i : Instr) : Prop := (∃ n, i = .ldI n) ∨ ∃ x, i = .addI x ∨ i = .ldF x

/-- The number of bytes at `I` an instruction accesses (R153 to R155, R163). -/
def accessLength : Instr → Nat
  | .drw _ _ n => n.toNat
  | .ldB _ => 3
  | .ldMemVx x | .ldVxMem x => x.toNat + 1
  | _ => 0

/-- Everything an instruction can do: `Effect s i t` when `i` may take `s` to `t`. -/
inductive Effect (s : State) : Instr → State → Prop
  | outOfRange {i} (h0 : accessLength i ≠ 0) (hr : 4096 < s.iReg.toNat + accessLength i) :
      Effect s i (s.raise (.outOfBounds (max s.iReg.toNat 4096)) (some (encode i)))
  | overflow {nnn} (h : s.sp = 16) : Effect s (.call nnn) (s.raise .stackOverflow (some (encode (.call nnn))))
  | underflow (h : s.sp = 0) : Effect s .ret (s.raise .stackUnderflow (some (encode .ret)))
  | wait {x} (h : s.keysNew = 0) : Effect s (.ldVxK x) (s.setRun .waitKey)
  | advance {i} (h : (∃ nnn, i = .sys nnn) ∨ IsSkip i) : Effect s i s.advance
  | skip {i} (h : IsSkip i) : Effect s i s.skip
  | jp {nnn} : Effect s (.jp nnn) (s.setPc (zextNnn nnn))
  | jpV0 {nnn} : Effect s (.jpV0 nnn) (s.setPc (jumpV0Target s nnn))
  | call {nnn} (h : s.sp ≠ 16) : Effect s (.call nnn) ((s.push (s.pc + 2)).setPc (zextNnn nnn))
  | ret (h : s.sp ≠ 0) : Effect s .ret (s.drop.setPc s.top)
  | load {i x} (b : Byte) (h : LoadsRegister i x) : Effect s i (s.setV x b).advance
  | flagged {i x} (b : Byte) (c : Bool) (h : WritesFlagged i x) : Effect s i ((s.setV x b).setFlag c).advance
  | rnd {x kk} : Effect s (.rnd x kk) (s.drawRandom.setV x (randomMasked s kk)).advance
  | index {i} (a : Word) (h : WritesIndex i) : Effect s i (s.setI a).advance
  | ldDTVx {x} : Effect s (.ldDTVx x) (s.setDt (s.v x)).advance
  | ldSTVx {x} : Effect s (.ldSTVx x) (s.setSt (s.v x)).advance
  | ldB {x} (hr : s.iReg.toNat + 3 ≤ 4096) :
      Effect s (.ldB x) (s.store s.iReg.toNat (bcdDigits (s.v x))).advance
  | ldMemVx {x} (hr : s.iReg.toNat + (x.toNat + 1) ≤ 4096) :
      Effect s (.ldMemVx x) (s.store s.iReg.toNat (s.regsUpTo x)).advance
  | ldVxMem {x} (hr : s.iReg.toNat + (x.toNat + 1) ≤ 4096) :
      Effect s (.ldVxMem x) (s.loadRegs x s.iReg.toNat).advance
  | cls : Effect s .cls (s.setPx (Grid.clear s.px)).pushFrame.advance
  | drw {x y n} (hr : n.toNat = 0 ∨ s.iReg.toNat + n.toNat ≤ 4096) {d : Grid × Bool}
      (hd : d = Grid.draw s.px s.cfg.width s.cfg.height (s.v x).toNat (s.v y).toNat
        (Memory.loadBytes s.mem s.iReg.toNat n.toNat)) :
      Effect s (.drw x y n) ((s.setPx d.1).setFlag d.2).pushFrame.advance

theorem skipIf_effect {i : Instr} (s : State) (c : Bool) (h : IsSkip i) : Effect s i (s.skipIf c) := by
  cases c
  · exact .advance (.inr h)
  · exact .skip h

/-- A guarded access does what it does in range, or halts. -/
theorem withRange_effect {i : Instr} {s done t : State} (h : withRange i (accessLength i) s done = .next t)
    (hdone : accessLength i = 0 ∨ s.iReg.toNat + accessLength i ≤ 4096 → Effect s i done) : Effect s i t := by
  obtain ⟨rfl, hr⟩ | ⟨rfl, h0, hr⟩ := withRange_cases h
  · exact hdone hr
  · exact .outOfRange h0 hr

/-- An instruction does nothing but what `Effect` lists. -/
theorem exec_effect {i : Instr} {s t : State} (h : exec i s = .next t) : Effect s i t := by
  cases i with
  | sys nnn => cases h; exact .advance (.inl ⟨nnn, rfl⟩)
  | seImm | sneImm | seReg | sneReg | skp | sknp => cases h; exact skipIf_effect s _ (by simp [IsSkip])
  | jp => cases h; exact .jp
  | jpV0 => cases h; exact .jpV0
  | call nnn =>
    by_cases hsp : s.sp = 16
    · simp only [exec, execCall, hsp, if_true] at h; cases h; exact .overflow hsp
    · simp only [exec, execCall, hsp, if_false] at h; cases h; exact .call hsp
  | ret =>
    by_cases hsp : s.sp = 0
    · simp only [exec, execRet, hsp, if_true] at h; cases h; exact .underflow hsp
    · simp only [exec, execRet, hsp, if_false] at h; cases h; exact .ret hsp
  | ldVxK x =>
    by_cases hk : s.keysNew = 0
    · simp only [exec, execLdVxK, hk, if_true] at h; cases h; exact .wait hk
    · simp only [exec, execLdVxK, hk, if_false] at h; cases h; exact .load _ (by simp [LoadsRegister])
  | ldImm | addImm | ldReg | orReg | andReg | xorReg | ldVxDT => cases h; exact .load _ (by simp [LoadsRegister])
  | addReg | sub | shr | subn | shl => cases h; exact .flagged _ _ (by simp [WritesFlagged])
  | rnd => cases h; exact .rnd
  | ldI | addI | ldF => cases h; exact .index _ (by simp [WritesIndex])
  | ldDTVx => cases h; exact .ldDTVx
  | ldSTVx => cases h; exact .ldSTVx
  | cls => cases h; exact .cls
  | drw x y n => exact withRange_effect (i := .drw x y n) h fun hr => .drw hr rfl
  | ldB x => exact withRange_effect (i := .ldB x) h fun hr => .ldB (by simpa [accessLength] using hr)
  | ldMemVx x => exact withRange_effect (i := .ldMemVx x) h fun hr => .ldMemVx (by simpa [accessLength] using hr)
  | ldVxMem x => exact withRange_effect (i := .ldVxMem x) h fun hr => .ldVxMem (by simpa [accessLength] using hr)

/-! One tick event -/

@[simp] theorem State.deliver_run (s : State) : s.deliver.run = s.run := by
  obtain ⟨p, r, h⟩ := s.deliver_eq; rw [h]

@[simp] theorem State.deliver_pc (s : State) : s.deliver.pc = s.pc := by
  obtain ⟨p, r, h⟩ := s.deliver_eq; rw [h]

@[simp] theorem State.deliver_frames (s : State) : s.deliver.frames = s.frames := by
  obtain ⟨p, r, h⟩ := s.deliver_eq; rw [h]

@[simp] theorem beforeFetch_run (s : State) : (beforeFetch s).run = s.run := by simp [beforeFetch]

@[simp] theorem beforeFetch_pc (s : State) : (beforeFetch s).pc = s.pc := by simp [beforeFetch]

/-- Everything a tick event can do (R90, R100, R102, R103): `TickEffect s t` when it may take `s` to `t`. -/
inductive TickEffect (s : State) : State → Prop
  | idle (h : s.run = .halted ∨ s.run = .stopped) : TickEffect s s.deliver
  | stop (h : s.run = .running ∨ s.run = .waitKey) (hs : s.nextInput.stopReq = true) :
      TickEffect s (s.deliver.setRun .stopped)
  | poll (h : s.run = .waitKey) (hs : s.nextInput.stopReq = false) (hk : s.deliver.mergeKeys.keysNew = 0) :
      TickEffect s s.deliver.mergeKeys
  | take (h : s.run = .waitKey) (hs : s.nextInput.stopReq = false) (hk : s.deliver.mergeKeys.keysNew ≠ 0)
      (hpc : s.pc.toNat < memSize) :
      TickEffect s ((s.deliver.mergeKeys.takeKey ((s.deliver.byte s.pc.toNat).extractLsb' 0 4)).setRun .running)
  | fetchFault (h : FullTick s) (hpc : 4095 ≤ s.pc.toNat) :
      TickEffect s ((beforeFetch s).raise (.outOfBounds (max s.pc.toNat 4096)) none)
  | decodeFault (h : FullTick s) (hpc : s.pc.toNat ≤ 4094) {e : DecodeError}
      (hw : decodeWord (wordAtPc (beforeFetch s)) = .error e) :
      TickEffect s ((beforeFetch s).raise (.decode e) (some (wordAtPc (beforeFetch s))))
  | execute (h : FullTick s) (hpc : s.pc.toNat ≤ 4094) {i : Instr} {t : State}
      (hw : decodeWord (wordAtPc (beforeFetch s)) = .ok i) (he : Effect (beforeFetch s) i t) : TickEffect s t

/-- The fetch reads the word at `pc` (R93), where one fits. -/
theorem fetch_eq_wordAtPc {s : State} (h : s.pc.toNat ≤ 4094) : fetch s = .ok (wordAtPc s) := fetch_inside s h

/-- Steps 3 to 6 of a full tick: a failed fetch, an illegal word, or the instruction. -/
theorem fetchAndExecute_effect {s t : State} (hf : FullTick s) (h : fetchAndExecute (beforeFetch s) = .next t) :
    TickEffect s t := by
  by_cases hpc : s.pc.toNat ≤ 4094
  · rw [fetchAndExecute, fetch_eq_wordAtPc (by simpa using hpc)] at h
    cases hw : decodeWord (wordAtPc (beforeFetch s)) with
    | error e => simp only [hw] at h; cases h; exact .decodeFault hf hpc hw
    | ok i => simp only [hw] at h; exact .execute hf hpc hw (exec_effect h)
  · have hpc' : 4095 ≤ s.pc.toNat := by omega
    rw [fetchAndExecute, fetch_outside _ (by simpa using hpc'), beforeFetch_pc] at h
    cases h; exact .fetchFault hf hpc'

/-- The wait poll of a waiting core with no stop request (R100). -/
theorem waitPoll_effect {s t : State} (hrun : s.run = .waitKey) (hs : s.nextInput.stopReq = false)
    (h : waitPoll s.deliver.mergeKeys = .next t) : TickEffect s t := by
  unfold waitPoll at h
  split_ifs at h with hk hpc
  · cases h; exact .poll hrun hs hk
  · cases h
    rw [State.mergeKeys_pc, State.deliver_pc] at hpc ⊢
    exact .take hrun hs hk hpc

/-- A tick event does nothing but what `TickEffect` lists. -/
theorem step_effect {s t : State} (h : step s = .next t) : TickEffect s t := by
  unfold step tickEvent tick at h
  rw [State.deliver_run] at h
  cases hrun : s.run with
  | halted => rw [hrun] at h; cases h; exact .idle (.inl hrun)
  | stopped => rw [hrun] at h; cases h; exact .idle (.inr hrun)
  | running =>
    cases hs : s.nextInput.stopReq with
    | true => rw [hrun, hs] at h; cases h; exact .stop (.inl hrun) hs
    | false => rw [hrun, hs] at h; exact fetchAndExecute_effect ⟨hrun, hs⟩ h
  | waitKey =>
    cases hs : s.nextInput.stopReq with
    | true => rw [hrun, hs] at h; cases h; exact .stop (.inr hrun) hs
    | false => rw [hrun, hs] at h; exact waitPoll_effect hrun hs h

end Sys2Proof.Machine
end

section
/-! PROOFS that the invariant of the machine (spec/10_state.md R23, R24, R27, R28, R30, R32 to R34) holds at reset and
that every tick event keeps it: a rule per state operation, then the outcomes of `Effect` and `TickEffect`. -/

namespace Sys2Proof.Machine

namespace Inv
variable {s : State}

/-! `Inv` reads neither the general registers nor `I`, `DT`, `ST` and the random counter. -/

theorem withRegs (h : Inv s) (r : Vector Byte 16) : Inv { s with regs := r } := { h with }
theorem drawRandom (h : Inv s) : Inv s.drawRandom := { h with }
theorem setI (h : Inv s) (a : Word) : Inv (s.setI a) := { h with }
theorem setDt (h : Inv s) (b : Byte) : Inv (s.setDt b) := { h with }
theorem setSt (h : Inv s) (b : Byte) : Inv (s.setSt b) := { h with }
theorem setV (h : Inv s) (x : Nibble) (b : Byte) : Inv (s.setV x b) := h.withRegs _
theorem setFlag (h : Inv s) (c : Bool) : Inv (s.setFlag c) := h.setV _ _
theorem loadRegs (h : Inv s) (x : Nibble) (a : Nat) : Inv (s.loadRegs x a) := h.withRegs _

/-! The display -/

theorem setPx (h : Inv s) {g : Grid} (hg : Grid.shaped g s.cfg.width s.cfg.height = true) : Inv (s.setPx g) :=
  { h with grid := hg }

theorem pushFrame (h : Inv s) : Inv s.pushFrame :=
  { h with frames := List.forall_mem_cons.mpr ⟨h.grid, h.frames⟩ }

/-! The stack -/

/-- A popped entry is out of use (R24). -/
theorem drop (h : Inv s) (hsp : s.sp ≠ 0) : Inv s.drop :=
  have hlt : s.drop.sp.val < s.sp.val := Fin.sub_one_lt_iff.mpr (Fin.pos_of_ne_zero hsp)
  { h with stack := fun k hk => h.stack k (hk.trans hlt) }

/-- The entry a RET pops is in use. -/
theorem top_le (h : Inv s) (hsp : s.sp ≠ 0) : s.top.toNat ≤ 4096 := by
  have hpos : s.sp.val ≠ 0 := fun e => hsp (Fin.ext e)
  have hlt : s.sp.val - 1 < 16 := by omega
  have htop := (h.stack ⟨s.sp.val - 1, hlt⟩ (by simp; omega)).2
  simpa [State.top, Vector.getD, hlt, Vector.get_eq_getElem] using htop

theorem push (h : Inv s) {a : Word} (hsp : s.sp ≠ 16) (ha : 2 ≤ a.toNat ∧ a.toNat ≤ 4096) : Inv (s.push a) :=
  { h with
    stack := fun k hk => by
      have hne : s.sp.val ≠ 16 := fun e => hsp (Fin.ext e)
      have hsucc : (s.push a).sp.val = s.sp.val + 1 := Fin.val_add_one_of_lt (Fin.lt_last_iff_ne_last.mpr hsp)
      simp only [State.push, Vector.get_eq_getElem, Vector.getElem_setIfInBounds]
      split
      · exact ha
      · exact h.stack k (by omega) }

/-! `pc`, memory and the run state -/

/-- A running core may go on anywhere `pc` may be (R23). -/
theorem setPc (h : Inv s) (hrun : s.run = .running) {a : Word} (ha : a.toNat ≤ 0x10FE) : Inv (s.setPc a) :=
  { h with pc := ha, wait := fun hw => by simp [hrun] at hw }

theorem advance (h : Inv s) (hrun : s.run = .running) (hpc : s.pc.toNat ≤ 4094) : Inv s.advance :=
  h.setPc hrun (by bv_omega)

theorem skip (h : Inv s) (hrun : s.run = .running) (hpc : s.pc.toNat ≤ 4094) : Inv s.skip :=
  h.setPc hrun (by bv_omega)

theorem store (h : Inv s) (hrun : s.run = .running) {a : Nat} {bs : List Byte} (ha : a + bs.length ≤ memSize) :
    Inv (s.store a bs) :=
  { h with
    mem := Memory.storeBytes_wf bs s.mem a h.mem ha
    wait := fun hw => by simp [hrun] at hw }

theorem raise (h : Inv s) (c : Fatal) (w : Option Word) : Inv (s.raise c w) :=
  { h with
    fault := by simp
    wait := fun hw => by simp at hw }

/-- The run state may move while no report is held, and to WaitKey only at a LD Vx, K. -/
theorem setRun (h : Inv s) {r : RunState} (hlive : s.run ≠ .halted) (hr : r ≠ .halted)
    (hwait : r = .waitKey → s.pc.toNat ≤ 4094 ∧ ∃ x, decodeWord (wordAtPc s) = .ok (.ldVxK x)) : Inv (s.setRun r) :=
  { h with
    fault := ⟨fun e => absurd e hr, fun e => absurd (h.fault.mpr e) hlive⟩
    wait := hwait }

/-! The merge and the timer step -/

/-- The merge makes every new key a held one (R91). -/
theorem mergeKeys (h : Inv s) : Inv s.mergeKeys :=
  { h with
    keys := by
      apply BitVec.eq_of_getLsbD_eq; intro i hi
      simp +contextual }

/-- The divider counts up to `TIMER_DIV` and starts again at 0 (R92). -/
theorem timerStep (h : Inv s) : Inv s.timerStep := by
  have hctr := h.ctr
  unfold State.timerStep
  split
  · exact { h with ctr := by simp; omega }
  · exact { h with ctr := by simp; omega }

/-- What precedes the fetch of a tick. -/
theorem beforeFetch (h : Inv s) : Inv (beforeFetch s) := (deliver_keeps_inv h).mergeKeys.timerStep

end Inv

theorem jumpV0Target_le (s : State) (nnn : Addr12) : (jumpV0Target s nnn).toNat ≤ 0x10FE := by
  have h1 := nnn.isLt
  have h2 := (s.v 0#4).isLt
  simp only [jumpV0Target, zextNnn, zextByte]
  bv_omega

theorem zextNnn_le (nnn : Addr12) : (zextNnn nnn).toNat ≤ 0x10FE := by
  have h := nnn.isLt
  simp only [zextNnn]
  bv_omega

@[simp] theorem length_regsUpTo (s : State) (x : Nibble) : (s.regsUpTo x).length = x.toNat + 1 := by
  have h := x.isLt
  simp [State.regsUpTo]; omega

@[simp] theorem length_bcdDigits (b : Byte) : (bcdDigits b).length = 3 := rfl

/-- An instruction fetched by a running core keeps the invariant. -/
theorem Effect.keeps_inv {s t : State} {i : Instr} (he : Effect s i t) (h : Inv s) (hrun : s.run = .running)
    (hpc : s.pc.toNat ≤ 4094) (hw : decodeWord (wordAtPc s) = .ok i) : Inv t := by
  cases he with
  | outOfRange | overflow | underflow => exact h.raise _ _
  | @wait x => exact h.setRun (by simp [hrun]) (by simp) fun _ => ⟨hpc, x, hw⟩
  | advance => exact h.advance hrun hpc
  | skip => exact h.skip hrun hpc
  | jp => exact h.setPc hrun (zextNnn_le _)
  | jpV0 => exact h.setPc hrun (jumpV0Target_le s _)
  | call hsp => exact (h.push hsp (by bv_omega)).setPc hrun (zextNnn_le _)
  | ret hsp => exact (h.drop hsp).setPc hrun ((h.top_le hsp).trans (by decide))
  | load b => exact (h.setV _ b).advance hrun hpc
  | flagged b c => exact ((h.setV _ b).setFlag c).advance hrun hpc
  | rnd => exact (h.drawRandom.setV _ _).advance hrun hpc
  | index a => exact (h.setI a).advance hrun hpc
  | ldDTVx => exact (h.setDt _).advance hrun hpc
  | ldSTVx => exact (h.setSt _).advance hrun hpc
  | ldB hr => exact (h.store hrun hr).advance hrun hpc
  | ldMemVx hr => exact (h.store hrun (by rwa [length_regsUpTo])).advance hrun hpc
  | ldVxMem => exact (h.loadRegs _ _).advance (by simpa using hrun) (by simpa using hpc)
  | cls => exact (h.setPx (Grid.clear_shaped _ _ _ h.grid)).pushFrame.advance hrun hpc
  | @drw _ _ _ _ d hd =>
    have hg : Grid.shaped d.1 s.cfg.width s.cfg.height = true := hd ▸ Grid.draw_shaped _ _ _ _ _ _ h.grid
    exact ((h.setPx hg).setFlag d.2).pushFrame.advance hrun hpc

/-- A tick event keeps the invariant. -/
theorem TickEffect.keeps_inv {s t : State} (ht : TickEffect s t) (h : Inv s) : Inv t := by
  have hd := deliver_keeps_inv h
  cases ht with
  | idle => exact hd
  | stop hrun => exact hd.setRun (by rcases hrun with e | e <;> simp [e]) (by simp) nofun
  | poll => exact hd.mergeKeys
  | take hrun =>
    have hpc : s.deliver.mergeKeys.pc.toNat ≤ 4094 := by simpa using (h.wait hrun).1
    exact ((hd.mergeKeys.setRun (r := .running) (by simp [hrun]) nofun nofun).setV _ _).advance rfl hpc
  | fetchFault | decodeFault => exact h.beforeFetch.raise _ _
  | execute hf hpc hw he => exact he.keeps_inv h.beforeFetch (by simpa using hf.1) (by simpa using hpc) hw

/-- Settles O48: each outcome of a tick event keeps the invariant. -/
theorem stepKeepsTheInvariant : Obligations.StepKeepsTheInvariant :=
  fun _ _ h ht => (step_effect ht).keeps_inv h

/-- Settles O47: the reset state is the one of a load with the default arguments, with a memory that lists nothing. -/
theorem resetMeetsTheInvariant : Obligations.ResetMeetsTheInvariant :=
  resetWith_inv (c := defaultConfig) (by decide) Memory.reset_wf

end Sys2Proof.Machine
end

section
/-! PROOFS of who writes what (spec/10_state.md R21, R36) and of how the run state moves (R33), read off the outcomes of
`Effect` and `TickEffect`. -/

namespace Sys2Proof.Machine

namespace Effect
variable {s t : State} {i : Instr}

/-! The run state: an instruction keeps it, halts, or waits. -/

theorem run (h : Effect s i t) :
    t.run = s.run ∨ t.run = .halted ∨ (t.run = .waitKey ∧ t.keysNew = 0 ∧ t.pc = s.pc) := by
  cases h with
  | outOfRange | overflow | underflow => exact .inr (.inl rfl)
  | wait hk => exact .inr (.inr ⟨rfl, hk, rfl⟩)
  | _ => exact .inl (by simp)

/-! The writers of each piece of state (R36) -/

theorem stack (h : Effect s i t) (hcall : ∀ n, i ≠ .call n) : t.stack = s.stack := by
  cases h with
  | call => exact absurd rfl (hcall _)
  | _ => simp

theorem sp (h : Effect s i t) (hcall : ∀ n, i ≠ .call n) (hret : i ≠ .ret) : t.sp = s.sp := by
  cases h with
  | call => exact absurd rfl (hcall _)
  | ret => exact absurd rfl hret
  | _ => simp

theorem iReg (h : Effect s i t) (hi : ¬ WritesIndex i) : t.iReg = s.iReg := by
  cases h with
  | index _ hw => exact absurd hw hi
  | _ => simp

theorem dt (h : Effect s i t) (hi : ∀ x, i ≠ .ldDTVx x) : t.dt = s.dt := by
  cases h with
  | ldDTVx => exact absurd rfl (hi _)
  | _ => simp

theorem st (h : Effect s i t) (hi : ∀ x, i ≠ .ldSTVx x) : t.st = s.st := by
  cases h with
  | ldSTVx => exact absurd rfl (hi _)
  | _ => simp

theorem mem (h : Effect s i t) (hi : ∀ x, i ≠ .ldB x ∧ i ≠ .ldMemVx x) : t.mem = s.mem := by
  cases h with
  | ldB => exact absurd rfl (hi _).1
  | ldMemVx => exact absurd rfl (hi _).2
  | _ => simp

theorem display (h : Effect s i t) (hcls : i ≠ .cls) (hdrw : ∀ x y n, i ≠ .drw x y n) : SameDisplay s t := by
  cases h with
  | cls => exact absurd rfl hcls
  | drw => exact absurd rfl (hdrw _ _ _)
  | _ => simp [SameDisplay]

/-- No instruction writes the tick divider, the key masks and buffers, the arguments or the coming inputs. -/
theorem untouched (h : Effect s i t) : t.tickCtr = s.tickCtr ∧ SameKeys s t ∧ SameHost s t := by
  cases h <;> simp [SameKeys, SameHost]

/-- A register that is neither a destination nor the flag keeps its value (R20, R21). -/
theorem v (h : Effect s i t) (r : Nibble) (hload : ¬ LoadsRegister i r) (hrnd : ∀ kk, i ≠ .rnd r kk)
    (hflag : ∀ x, ¬ WritesFlagged i x) (hdrw : ∀ x y n, i ≠ .drw x y n)
    (hblock : ∀ x, r.toNat ≤ x.toNat → i ≠ .ldVxMem x) : t.v r = s.v r := by
  cases h with
  | load b hx => simp [State.setV_v, show r ≠ _ from fun e => hload (e ▸ hx)]
  | rnd => simp [State.setV_v, show r ≠ _ from fun e => hrnd _ (by rw [e])]
  | flagged _ _ hx => exact absurd hx (hflag _)
  | drw => exact absurd rfl (hdrw _ _ _)
  | @ldVxMem x => simp [State.loadRegs_v, show ¬ r.toNat ≤ x.toNat from fun hr => hblock x hr rfl]
  | _ => simp

end Effect

/-- Settles O55: one lemma per piece of state names its writers. -/
theorem eachStateHasItsOwnWriters : Obligations.EachStateHasItsOwnWriters := by
  intro i s t ht
  have he := exec_effect ht
  refine ⟨he.stack, he.sp, fun hldI hrest => he.iReg ?_, he.dt, he.st, he.mem, he.display, he.untouched⟩
  rintro (⟨n, rfl⟩ | ⟨x, rfl | rfl⟩)
  · exact hldI n rfl
  · exact (hrest x).1 rfl
  · exact (hrest x).2 rfl

/-- The flag write leaves 0 or 1 in `VF`. -/
theorem State.setFlag_vf (s : State) (c : Bool) : (s.setFlag c).v 15#4 = 0 ∨ (s.setFlag c).v 15#4 = 1 := by
  cases c
  · exact .inl (State.setFlag_v s false 15#4)
  · exact .inr (State.setFlag_v s true 15#4)

/-- Settles O54: the six write the flag last, and no other instruction has `VF` among the registers it writes. -/
theorem onlySixInstructionsWriteVFAsFlag : Obligations.OnlySixInstructionsWriteVFAsFlag := by
  intro i s t ht
  refine ⟨?_, ?_, fun hflag hdrw hdest => (exec_effect ht).v 15#4 ?_ (fun kk hi => ?_) ?_ hdrw fun x hx hi => ?_⟩
  · rintro ⟨x, y, rfl | rfl | rfl | rfl | rfl⟩ <;> cases ht <;> exact State.setFlag_vf _ _
  · rintro ⟨x, y, n, rfl⟩ hrun
    obtain ⟨rfl, -⟩ | ⟨rfl, -⟩ := withRange_cases (i := .drw x y n) ht
    · exact State.setFlag_vf _ _
    · exact absurd rfl hrun
  · rintro ⟨y, k, hi⟩
    have hnot := hdest y k
    tauto
  · have hnot := hdest 0 kk
    tauto
  · rintro x ⟨y, hi⟩
    have hnot := hflag x y
    tauto
  · obtain rfl : x = 15#4 := by bv_omega
    have hnot := hdest 0 0
    tauto

/-- Settles O57: the run state before and after each outcome of a tick event. -/
theorem runStateTransitions : Obligations.RunStateTransitions := by
  intro s t ht
  cases step_effect ht with
  | idle h => rcases h with h | h <;> simp [h]
  | stop h hs => rcases h with h | h <;> simp [h, hs]
  | poll h hs => simp [h, hs]
  | take h hs hk => simpa [h, hs, State.takeKey] using hk
  | fetchFault hf | decodeFault hf => simp [hf.1, hf.2]
  | execute hf hpc hw he =>
    obtain ⟨hrun, hs⟩ := hf
    obtain hr | hr | ⟨hr, hk, hp⟩ := he.run
    · rw [beforeFetch_run] at hr; simp [hr, hrun, hs]
    · simp [hr, hrun, hs]
    · simp [hr, hrun, hs, hk, hp]

end Sys2Proof.Machine
end

section
/-! PROOFS that nothing reads the sound timer or the frames pushed (spec/10_state.md R26, R35; log 9): two states that
differ in these alone are carried along side by side through an instruction and through a tick event. -/

namespace Sys2Proof.Machine

/-- `s` with another value of `ST` and another list of frames. -/
def State.withOutput (s : State) (a : Byte) (f : List Grid) : State := { s with st := a, frames := f }

@[simp] theorem State.withOutput_iReg (s : State) (a : Byte) (f : List Grid) : (s.withOutput a f).iReg = s.iReg := rfl
@[simp] theorem State.withOutput_pc (s : State) (a : Byte) (f : List Grid) : (s.withOutput a f).pc = s.pc := rfl
@[simp] theorem State.withOutput_keysNew (s : State) (a : Byte) (f : List Grid) :
    (s.withOutput a f).keysNew = s.keysNew := rfl
@[simp] theorem State.withOutput_byte (s : State) (a : Byte) (f : List Grid) (i : Nat) :
    (s.withOutput a f).byte i = s.byte i := rfl
@[simp] theorem State.withOutput_tickCtr (s : State) (a : Byte) (f : List Grid) :
    (s.withOutput a f).tickCtr = s.tickCtr := rfl
@[simp] theorem State.withOutput_run (s : State) (a : Byte) (f : List Grid) : (s.withOutput a f).run = s.run := rfl
@[simp] theorem State.withOutput_cfg (s : State) (a : Byte) (f : List Grid) : (s.withOutput a f).cfg = s.cfg := rfl

/-- If `o` is a next state that has pushed frames on `old`, then `o'` is the same state but for `ST` and but for `f` in
place of `old`. -/
def AnswersAlike (old f : List Grid) (o o' : Result) : Prop :=
  ∀ t, o = .next t → ∃ b new, t.frames = new ++ old ∧ o' = .next (t.withOutput b (new ++ f))

/-! Instructions -/

theorem answersAlike_next {t : State} {b : Byte} {old f : List Grid} (h : t.frames = old) :
    AnswersAlike old f (.next t) (.next (t.withOutput b f)) := by
  rintro _ ⟨⟩
  exact ⟨b, [], h, rfl⟩

theorem answersAlike_push {t : State} {b : Byte} {g : Grid} {old f : List Grid} (h : t.frames = g :: old) :
    AnswersAlike old f (.next t) (.next (t.withOutput b (g :: f))) := by
  rintro _ ⟨⟩
  exact ⟨b, [g], h, rfl⟩

theorem answersAlike_ite {old f : List Grid} {c : Prop} [Decidable c] {o₁ o₂ o₁' o₂' : Result}
    (h₁ : AnswersAlike old f o₁ o₁') (h₂ : AnswersAlike old f o₂ o₂') :
    AnswersAlike old f (if c then o₁ else o₂) (if c then o₁' else o₂') := by
  split
  · exact h₁
  · exact h₂

theorem answersAlike_skipIf {s : State} {a : Byte} {f : List Grid} (c : Bool) :
    AnswersAlike s.frames f (.next (s.skipIf c)) (.next ((s.withOutput a f).skipIf c)) := by
  cases c
  · exact answersAlike_next rfl
  · exact answersAlike_next rfl

theorem answersAlike_withRange {s : State} {a : Byte} {f : List Grid} (i : Instr) (len : Nat) {done done' : State}
    (h : AnswersAlike s.frames f (.next done) (.next done')) :
    AnswersAlike s.frames f (withRange i len s done) (withRange i len (s.withOutput a f) done') := by
  unfold withRange
  rw [State.withOutput_iReg]
  cases outOfRange s.iReg.toNat len with
  | none => exact h
  | some _ => exact answersAlike_next rfl

/-- No instruction reads `ST` or the frames. -/
theorem exec_answersAlike (i : Instr) (s : State) (a : Byte) (f : List Grid) :
    AnswersAlike s.frames f (exec i s) (exec i (s.withOutput a f)) := by
  cases i with
  | seImm | sneImm | seReg | sneReg | skp | sknp => exact answersAlike_skipIf _
  | ret | call | ldVxK => exact answersAlike_ite (answersAlike_next rfl) (answersAlike_next rfl)
  | cls => exact answersAlike_push rfl
  | drw x y n => exact answersAlike_withRange _ _ (answersAlike_push rfl)
  | ldB | ldMemVx | ldVxMem => exact answersAlike_withRange _ _ (answersAlike_next (by simp))
  | _ => exact answersAlike_next rfl

/-! The tick event -/

theorem foldl_withOutput (es : List KeyEvent) (s : State) (a : Byte) (f : List Grid) :
    es.foldl applyEvent (s.withOutput a f) = (es.foldl applyEvent s).withOutput a f := by
  induction es generalizing s with
  | nil => rfl
  | cons e es ih =>
    cases e with
    | press k => exact ih (hostPress k s)
    | release k => exact ih (hostRelease k s)

/-- Delivery writes neither (R91). -/
theorem deliver_withOutput (s : State) (a : Byte) (f : List Grid) :
    (s.withOutput a f).deliver = s.deliver.withOutput a f :=
  foldl_withOutput s.nextInput.events { s with hostInputs := s.hostInputs.tail } a f

/-- The timer step counts each timer down by itself (R92). -/
theorem timerStep_withOutput (s : State) (a : Byte) (f : List Grid) :
    ∃ b, (s.withOutput a f).timerStep = s.timerStep.withOutput b f := by
  unfold State.timerStep
  rw [State.withOutput_tickCtr, State.withOutput_cfg]
  split
  · exact ⟨countDown a, rfl⟩
  · exact ⟨a, rfl⟩

theorem fetch_withOutput (s : State) (a : Byte) (f : List Grid) : fetch (s.withOutput a f) = fetch s := rfl

theorem fetchAndExecute_answersAlike (s : State) (a : Byte) (f : List Grid) :
    AnswersAlike s.frames f (fetchAndExecute s) (fetchAndExecute (s.withOutput a f)) := by
  unfold fetchAndExecute
  rw [fetch_withOutput]
  cases fetch s with
  | error _ => exact answersAlike_next rfl
  | ok w =>
    dsimp only
    cases decodeWord w with
    | error _ => exact answersAlike_next rfl
    | ok i => exact exec_answersAlike i s a f

theorem waitPoll_answersAlike (s : State) (a : Byte) (f : List Grid) :
    AnswersAlike s.frames f (waitPoll s) (waitPoll (s.withOutput a f)) := by
  unfold waitPoll
  rw [State.withOutput_keysNew, State.withOutput_pc, State.withOutput_byte]
  exact answersAlike_ite (answersAlike_next rfl) (answersAlike_ite (answersAlike_next rfl) fun _ h => nomatch h)

theorem tick_answersAlike (stopReq : Bool) (s : State) (a : Byte) (f : List Grid) :
    AnswersAlike s.frames f (tick stopReq s) (tick stopReq (s.withOutput a f)) := by
  unfold tick
  rw [State.withOutput_run]
  cases s.run with
  | halted | stopped => exact answersAlike_next rfl
  | waitKey => exact answersAlike_ite (answersAlike_next rfl) (waitPoll_answersAlike s.mergeKeys a f)
  | running =>
    obtain ⟨b, hb⟩ := timerStep_withOutput s.mergeKeys a f
    have hfull := fetchAndExecute_answersAlike s.mergeKeys.timerStep b f
    rw [← hb, State.timerStep_frames] at hfull
    exact answersAlike_ite (answersAlike_next rfl) hfull

/-- Settles O56: delivery, timer step, fetch, wait poll and every instruction go on alike whatever `ST` and the frames
are. -/
theorem soundTimerAndFramesAreNeverRead : Obligations.SoundTimerAndFramesAreNeverRead := by
  intro s t a f ht
  have halike := tick_answersAlike s.nextInput.stopReq s.deliver a f
  rw [State.deliver_frames, ← deliver_withOutput] at halike
  exact halike t ht

end Sys2Proof.Machine
end

section
/-! PROOFS of what a load leaves (spec/10_state.md R37, spec/70_reset_and_hazards.md R210, R221). -/

namespace Sys2Proof.Machine

/-- The default glyph table fills addresses 0 to 79 of what an unlisted address reads as (log 8). -/
theorem resetByte_beyond {a : Nat} (h : 80 ≤ a) : resetByte a = 0 := by
  have hlen : glyphTable.length = 80 := rfl
  simp only [resetByte, defaultConfig, Nat.zero_le, if_true, Nat.sub_zero]
  exact List.getD_eq_default _ _ (by omega)

/-- The first store of a load clears all memory. -/
theorem read_cleared (a : Nat) :
    Memory.read (Memory.storeBytes [] defaultConfig.fontBase (List.replicate glyphTable.length 0)) a = 0 := by
  have hlen : (List.replicate glyphTable.length (0 : Byte)).length = 80 := rfl
  by_cases h : a < 80
  · have hread := Memory.read_storeBytes (List.replicate glyphTable.length 0) [] defaultConfig.fontBase a rfl (by omega)
    simpa [defaultConfig] using hread
  · rw [Memory.read_storeBytes_other _ _ _ _ (by simp only [defaultConfig]; omega)]
    exact resetByte_beyond (by omega)

section LoadImage
variable (c : Config) (glyphs : Vector Byte 80) (rom : List Byte)

/-- The ROM stands at 512 (R210). -/
theorem read_loadImage_rom {k : Nat} (h : k < rom.length) : Memory.read (loadImage c glyphs rom) (512 + k) = rom[k] :=
  Memory.read_storeBytes _ _ _ _
    (Memory.storeBytes_rises _ _ _ (Memory.storeBytes_rises _ _ _ rfl)) h

/-- The glyph table stands at `FONT_BASE`, below the ROM (R212). -/
theorem read_loadImage_glyph (hfont : c.fontBase ≤ 432) {k : Nat} (h : k < 80) :
    Memory.read (loadImage c glyphs rom) (c.fontBase + k) = glyphs[k] := by
  rw [loadImage, Memory.read_storeBytes_other _ _ _ _ (by simp only [progBase]; omega),
    Memory.read_storeBytes _ _ _ _ (Memory.storeBytes_rises _ _ _ rfl) (by simpa using h), Vector.getElem_toList]

/-- Every other byte is 0 (D4). -/
theorem read_loadImage_other {a : Nat} (hrom : a < 512 ∨ 512 + rom.length ≤ a)
    (hglyph : a < c.fontBase ∨ c.fontBase + 80 ≤ a) : Memory.read (loadImage c glyphs rom) a = 0 := by
  rw [loadImage, Memory.read_storeBytes_other rom _ progBase a hrom,
    Memory.read_storeBytes_other _ _ _ _ (by simpa using hglyph), read_cleared]

end LoadImage

/-- Settles O44: a ROM that fits gives the reset state with the memory image of the load. -/
theorem loadLeavesTheResetState : Obligations.LoadLeavesTheResetState := by
  intro c glyphs rom
  refine ⟨load_tooLong c glyphs rom, fun hc hrom => ⟨_, load_fits c glyphs rom hrom, ?_⟩⟩
  obtain ⟨-, -, -, hfont⟩ := (Config.wf_iff c).mp hc
  refine ⟨rfl, rfl, rfl, rfl, rfl, fun k => read_loadImage_rom c glyphs rom,
    fun k => read_loadImage_glyph c glyphs rom hfont, fun a => read_loadImage_other c glyphs rom,
    loadImage_wf c glyphs rom hfont hrom, ?_⟩
  refine ⟨fun r => ?_, rfl, rfl, rfl, fun k => ?_, rfl, rfl, rfl, rfl, rfl, Grid.blank_shaped c.width c.height,
    Grid.get_blank c.width c.height, rfl⟩
  · simp [State.v, State.resetWith, Vector.get_eq_getElem]
  · simp [State.resetWith]

end Sys2Proof.Machine
end

section
/-! PROOFS about one tick event as a whole (spec/40_step_cycle.md R90, R100, R103): what a full tick runs, that a state of
the invariant always has a next one, and that the next fetch sees a store (spec/20_memory.md R60). -/

namespace Sys2Proof.Machine

/-! Every instruction has a meaning -/

theorem withRange_next (i : Instr) (len : Nat) (s done : State) : ∃ t, withRange i len s done = .next t := by
  by_cases h : len = 0 ∨ s.iReg.toNat + len ≤ 4096
  · exact ⟨_, withRange_inside i len s done h⟩
  · exact ⟨_, withRange_outside i len s done (by omega) (by omega)⟩

/-- An instruction answers a next state in every state (R95, R106; log 1). -/
theorem exec_next (i : Instr) (s : State) : ∃ t, exec i s = .next t := by
  cases i with
  | call nnn =>
    by_cases h : s.sp = 16
    · exact ⟨_, if_pos h⟩
    · exact ⟨_, if_neg h⟩
  | ret =>
    by_cases h : s.sp = 0
    · exact ⟨_, if_pos h⟩
    · exact ⟨_, if_neg h⟩
  | ldVxK x =>
    by_cases h : s.keysNew = 0
    · exact ⟨_, if_pos h⟩
    · exact ⟨_, if_neg h⟩
  | drw | ldB | ldMemVx | ldVxMem => exact withRange_next _ _ _ _
  | _ => exact ⟨_, rfl⟩

/-! The full tick -/

@[simp] theorem State.deliver_byte (s : State) (a : Nat) : s.deliver.byte a = s.byte a := by
  obtain ⟨p, r, h⟩ := s.deliver_eq; rw [h]; rfl

@[simp] theorem beforeFetch_byte (s : State) (a : Nat) : (beforeFetch s).byte a = s.byte a := by simp [beforeFetch]

/-- Steps 1 and 2 leave the word that step 3 fetches (R90). -/
@[simp] theorem wordAtPc_beforeFetch (s : State) : wordAtPc (beforeFetch s) = wordAtPc s := by simp [wordAtPc]

/-- A full tick is steps 3 to 6 after steps 1 and 2 (R90). -/
theorem step_fullTick {s : State} (h : FullTick s) : step s = fetchAndExecute (beforeFetch s) := by
  obtain ⟨hrun, hs⟩ := h
  simp [step, tickEvent, tick, hrun, hs, beforeFetch]

theorem fetchAndExecute_illegal {s : State} {e : DecodeError} (hpc : s.pc.toNat ≤ 4094)
    (hw : decodeWord (wordAtPc s) = .error e) :
    fetchAndExecute s = .next (s.raise (.decode e) (some (wordAtPc s))) := by
  simp only [fetchAndExecute, fetch_eq_wordAtPc hpc, hw]

theorem fetchAndExecute_legal {s : State} {i : Instr} (hpc : s.pc.toNat ≤ 4094)
    (hw : decodeWord (wordAtPc s) = .ok i) : fetchAndExecute s = exec i s := by
  simp only [fetchAndExecute, fetch_eq_wordAtPc hpc, hw]

theorem fetchAndExecute_outside {s : State} (hpc : 4095 ≤ s.pc.toNat) :
    fetchAndExecute s = .next (s.raise (.outOfBounds (max s.pc.toNat 4096)) none) := by
  simp only [fetchAndExecute, fetch_outside s hpc]

/-- The instruction a full tick runs (R90, R93, R95). -/
theorem step_executes {s : State} {i : Instr} (h : FullTick s) (hpc : s.pc.toNat ≤ 4094)
    (hw : decodeWord (wordAtPc s) = .ok i) : step s = exec i (beforeFetch s) := by
  rw [step_fullTick h, fetchAndExecute_legal (by simpa using hpc) (by simpa using hw)]

/-! A state of the invariant has a next one -/

theorem fetchAndExecute_next (s : State) : ∃ t, fetchAndExecute s = .next t := by
  by_cases hpc : s.pc.toNat ≤ 4094
  · cases hw : decodeWord (wordAtPc s) with
    | error e => exact ⟨_, fetchAndExecute_illegal hpc hw⟩
    | ok i => exact fetchAndExecute_legal hpc hw ▸ exec_next i s
  · exact ⟨_, fetchAndExecute_outside (by omega)⟩

/-- The model's one fault needs a `pc` outside memory (log 29). -/
theorem waitPoll_next {s : State} (hpc : s.pc.toNat < memSize) : ∃ t, waitPoll s = .next t := by
  by_cases hk : s.keysNew = 0
  · exact ⟨_, if_pos hk⟩
  · exact ⟨_, (if_neg hk).trans (if_pos hpc)⟩

/-- Only a waiting core whose `pc` is outside memory can be stuck. -/
theorem step_next {s : State} (hwait : s.run = .waitKey → s.pc.toNat < memSize) : ∃ t, step s = .next t := by
  unfold step tickEvent tick
  rw [State.deliver_run]
  cases hrun : s.run with
  | halted | stopped => exact ⟨_, rfl⟩
  | running =>
    cases s.nextInput.stopReq with
    | true => exact ⟨_, rfl⟩
    | false => exact fetchAndExecute_next _
  | waitKey =>
    cases s.nextInput.stopReq with
    | true => exact ⟨_, rfl⟩
    | false => exact waitPoll_next (by simpa using hwait hrun)

/-- Settles O49: while the core waits, the invariant has `pc` at an instruction inside memory. -/
theorem invariantStatesNeverGetStuck : Obligations.InvariantStatesNeverGetStuck := by
  intro s h
  obtain ⟨t, ht⟩ := step_next fun hw => (h.wait hw).1.trans_lt (by decide)
  exact ⟨t, ht, stepKeepsTheInvariant s t h ht⟩

/-! A store and the next fetch -/

/-- A block store puts `V[k]` at `a + k` (R154). -/
theorem State.byte_store_regsUpTo {s : State} {x k : Nibble} (a : Nat) (hm : Memory.wf s.mem = true)
    (hk : k.toNat ≤ x.toNat) : (s.store a (s.regsUpTo x)).byte (a + k.toNat) = s.v k := by
  have hlen : k.toNat < (s.regsUpTo x).length := by rw [length_regsUpTo]; omega
  calc (s.store a (s.regsUpTo x)).byte (a + k.toNat)
      = (s.regsUpTo x)[k.toNat] := Memory.read_storeBytes _ _ _ _ (Memory.rises_of_wf hm) hlen
    _ = s.v k := by simp [State.regsUpTo, State.v, Vector.get_eq_getElem]

/-- LD [I], Vx with its block inside memory (R154). -/
theorem exec_ldMemVx_inside {x : Nibble} {s : State} (h : s.iReg.toNat + x.toNat ≤ 4095) :
    exec (.ldMemVx x) s = .next (s.store s.iReg.toNat (s.regsUpTo x)).advance :=
  withRange_inside _ _ _ _ (.inr (by omega))

/-- A block of `V[0]` and `V[1]` stored just behind the instruction is the word at the new `pc` (R53, R60). -/
theorem wordAtPc_blockStore {s : State} (hm : Memory.wf s.mem = true) (hI : s.iReg = s.pc + 2) :
    wordAtPc (s.store s.iReg.toNat (s.regsUpTo 1#4)).advance = s.v 0#4 ++ s.v 1#4 := by
  have hhigh : (s.store s.iReg.toNat (s.regsUpTo 1#4)).byte s.iReg.toNat = s.v 0#4 :=
    State.byte_store_regsUpTo (k := 0#4) _ hm (by decide)
  have hlow : (s.store s.iReg.toNat (s.regsUpTo 1#4)).byte (s.iReg.toNat + 1) = s.v 1#4 :=
    State.byte_store_regsUpTo (k := 1#4) _ hm (by decide)
  simp only [wordAtPc, State.advance_pc, State.store_pc, State.advance_byte, ← hI, hhigh, hlow]

/-- Settles O58: the store leaves `V[0]` and `V[1]` as the word at the new `pc`, and the next full tick runs that word. -/
theorem storedBytesAreFetchedNext : Obligations.StoredBytesAreFetchedNext := by
  intro s i hrun hm hI hin hstop hw
  have hpc : (s.pc + 2).toNat ≤ 4094 := by rw [← hI]; omega
  exact ⟨_, exec_ldMemVx_inside hin, step_executes ⟨hrun, hstop⟩ hpc (by rw [wordAtPc_blockStore hm hI, hw])⟩

end Sys2Proof.Machine
end

section
/-! PROOFS of the encoding (spec/30_encoding.md R70 to R76): the decoder reads every instruction back from its word and
from its bytes, rejects exactly the illegal words, and loses no operand bit. -/

namespace Sys2Proof

/-! The word of an instruction decodes to it. -/

/-- The exception of R74 row 3, read on the word: SYS is well formed off the words of CLS and RET. -/
theorem wellFormed_sys_iff (nnn : Addr12) :
    WellFormed (.sys nnn) = true ↔ formNnn 0x0#4 nnn ≠ 0x00E0#16 ∧ formNnn 0x0#4 nnn ≠ 0x00EE#16 := by
  have form_eq (a : Addr12) : formNnn 0x0#4 nnn = formNnn 0x0#4 a ↔ nnn = a :=
    ⟨fun h => by simpa using congrArg fieldNnn h, congrArg _⟩
  have hcls : formNnn 0x0#4 nnn = 0x00E0#16 ↔ nnn = 0x0E0#12 := form_eq 0x0E0#12
  have hret : formNnn 0x0#4 nnn = 0x00EE#16 ↔ nnn = 0x0EE#12 := form_eq 0x0EE#12
  simp [WellFormed, hcls, hret]

/-- The top nibble of the word selects the group, and the low nibble or byte the instruction in it (R73). -/
theorem decodeWord_encode {i : Instr} (h : WellFormed i = true) : decodeWord (encode i) = .ok i := by
  cases i
  case cls | ret => rfl
  case sys nnn =>
    obtain ⟨hcls, hret⟩ := (wellFormed_sys_iff nnn).1 h
    simp [encode, decodeWord, decodeGroup0, hcls, hret]
  case jp | call | ldI | jpV0 => simp [encode, decodeWord]
  case seImm | sneImm | ldImm | addImm | rnd => simp [encode, decodeWord]
  case seReg | sneReg | drw => simp [encode, decodeWord]
  case ldReg | orReg | andReg | xorReg | addReg | sub | shr | subn | shl => simp [encode, decodeWord, decodeGroup8]
  case skp | sknp => simp [encode, decodeWord, decodeGroupE]
  case ldVxDT | ldVxK | ldDTVx | ldSTVx | addI | ldF | ldB | ldMemVx | ldVxMem =>
    simp [encode, decodeWord, decodeGroupF]

/-- What a word decodes to, its two bytes in memory order decode to (R53, R70). -/
theorem decodeBytes_bytes {w : Word} {i : Instr} (h : decodeWord w = .ok i) (rest : List Byte) :
    decodeBytes (highByte w :: lowByte w :: rest) = .ok (i, rest) := by
  simp [decodeBytes, h]

/-- Settles O3: the bytes are those of the word, and the word decodes group by group. -/
theorem decodeOfEncodeIsTheInstruction : Obligations.DecodeOfEncodeIsTheInstruction := fun _ h =>
  ⟨decodeWord_encode h, decodeBytes_bytes (decodeWord_encode h)⟩

/-! A word with known fixed bits is its form over the fields left (R72). -/

section
variable {w : Word} {t n : Nibble} {kk : Byte}

theorem formNnn_of_top (ht : fieldTop w = t) : formNnn t (fieldNnn w) = w := by
  rw [← ht, formNnn_fields]

theorem formXkk_of_top (ht : fieldTop w = t) : formXkk t (fieldX w) (fieldKk w) = w := by
  rw [← ht, formXkk_fields]

theorem formXyn_of_top (ht : fieldTop w = t) : formXyn t (fieldX w) (fieldY w) (fieldN w) = w := by
  rw [← ht, formXyn_fields]

theorem formXkk_of_top_kk (ht : fieldTop w = t) (hk : fieldKk w = kk) : formXkk t (fieldX w) kk = w := by
  rw [← hk, formXkk_of_top ht]

theorem formXyn_of_top_n (ht : fieldTop w = t) (hn : fieldN w = n) : formXyn t (fieldX w) (fieldY w) n = w := by
  rw [← hn, formXyn_of_top ht]

/-- Only the words of CLS and RET are not SYS in group 0x0 (R76). -/
theorem wellFormed_sys_of_top (ht : fieldTop w = 0x0#4) (hcls : w ≠ 0x00E0#16) (hret : w ≠ 0x00EE#16) :
    WellFormed (.sys (fieldNnn w)) = true := by
  rw [wellFormed_sys_iff, formNnn_of_top ht]
  exact ⟨hcls, hret⟩

end

/-! The decoder on an arbitrary word. -/

open Machine

/-- What an answer of the decoder to `w` must be: a well-formed instruction whose word is the legal `w`, or the report of
the illegal word `w` (R73 to R75). -/
def Answers (w : Word) : Except DecodeError Instr → Prop
  | .ok i => encode i = w ∧ WellFormed i = true ∧ ¬ IllegalWord w
  | .error e => e = decodeErrorOf w ∧ IllegalWord w

section
variable {w : Word}

/-! R75's table, one group at a time. -/

theorem illegalWord_iff_of_top_5_or_9 (h : fieldTop w = 0x5#4 ∨ fieldTop w = 0x9#4) :
    IllegalWord w ↔ fieldN w ≠ 0x0#4 := by
  simp only [fieldTop] at h
  obtain h | h := h <;> simp [IllegalWord, h, fieldN, BitVec.toNat_eq]

theorem illegalWord_iff_of_top8 (h : fieldTop w = 0x8#4) :
    IllegalWord w ↔ (fieldN w).toNat ∈ [0x8, 0x9, 0xA, 0xB, 0xC, 0xD, 0xF] := by
  rw [fieldTop] at h
  simp [IllegalWord, h, fieldN]

theorem illegalWord_iff_of_topE (h : fieldTop w = 0xE#4) : IllegalWord w ↔ (fieldKk w).toNat ∉ [0x9E, 0xA1] := by
  rw [fieldTop] at h
  simp [IllegalWord, h, fieldKk]

theorem illegalWord_iff_of_topF (h : fieldTop w = 0xF#4) :
    IllegalWord w ↔ (fieldKk w).toNat ∉ [0x07, 0x0A, 0x15, 0x18, 0x1E, 0x29, 0x33, 0x55, 0x65] := by
  rw [fieldTop] at h
  simp [IllegalWord, h, fieldKk]

/-- R75 names no other group. -/
theorem not_illegalWord_of_top (h : (fieldTop w).toNat ∉ [0x5, 0x8, 0x9, 0xE, 0xF]) : ¬ IllegalWord w := by
  simp only [List.mem_cons, List.not_mem_nil, or_false, fieldTop] at h
  simp only [IllegalWord]
  omega

/-! Each group of the decoder. -/

theorem answers_decodeGroup0 (ht : fieldTop w = 0x0#4) : Answers w (.ok (decodeGroup0 w)) := by
  have legal : ¬ IllegalWord w := not_illegalWord_of_top (by simp [ht])
  unfold decodeGroup0
  split_ifs with hcls hret
  · exact ⟨hcls.symm, rfl, legal⟩
  · exact ⟨hret.symm, rfl, legal⟩
  · exact ⟨formNnn_of_top ht, wellFormed_sys_of_top ht hcls hret, legal⟩

theorem answers_decodeGroup8 (ht : fieldTop w = 0x8#4) : Answers w (decodeGroup8 w) := by
  have illegal_iff := illegalWord_iff_of_top8 ht
  unfold decodeGroup8
  split
  case h_10 =>
    have := (fieldN w).isLt
    refine ⟨rfl, illegal_iff.2 ?_⟩
    simp only [imp_false, List.mem_cons, List.not_mem_nil, or_false] at *
    omega
  all_goals
    next hn => exact ⟨formXyn_of_top_n ht (BitVec.eq_of_toNat_eq hn), rfl, by simp [illegal_iff, hn]⟩

theorem answers_decodeGroupE (ht : fieldTop w = 0xE#4) : Answers w (decodeGroupE w) := by
  have illegal_iff := illegalWord_iff_of_topE ht
  unfold decodeGroupE
  split
  case h_3 => exact ⟨rfl, by simp_all⟩
  all_goals
    next hk => exact ⟨formXkk_of_top_kk ht (BitVec.eq_of_toNat_eq hk), rfl, by simp [illegal_iff, hk]⟩

theorem answers_decodeGroupF (ht : fieldTop w = 0xF#4) : Answers w (decodeGroupF w) := by
  have illegal_iff := illegalWord_iff_of_topF ht
  unfold decodeGroupF
  split
  case h_10 => exact ⟨rfl, by simp_all⟩
  all_goals
    next hk => exact ⟨formXkk_of_top_kk ht (BitVec.eq_of_toNat_eq hk), rfl, by simp [illegal_iff, hk]⟩

/-- Groups 0x5 and 0x9: one instruction, at low nibble 0 (R74 rows 8 and 20). -/
theorem answers_lowNibbleZero {t : Nibble} {i : Instr} (ht : fieldTop w = t) (hgroup : t = 0x5#4 ∨ t = 0x9#4)
    (hi : encode i = formXyn t (fieldX w) (fieldY w) 0x0#4) (hwf : WellFormed i = true) :
    Answers w (if fieldN w = 0x0#4 then .ok i else .error (decodeErrorOf w)) := by
  have illegal_iff : IllegalWord w ↔ fieldN w ≠ 0x0#4 := illegalWord_iff_of_top_5_or_9 (by rwa [ht])
  split_ifs with hn
  · exact ⟨hi.trans (formXyn_of_top_n ht hn), hwf, by simp [illegal_iff, hn]⟩
  · exact ⟨rfl, illegal_iff.2 hn⟩

/-- The decoder answers rightly to every word: R73's split on the top nibble. -/
theorem answers_decodeWord (w : Word) : Answers w (decodeWord w) := by
  unfold decodeWord
  split <;> rename_i ht
  case h_1 => exact answers_decodeGroup0 (BitVec.eq_of_toNat_eq ht)
  case h_2 | h_3 | h_11 | h_12 =>
    exact ⟨formNnn_of_top (BitVec.eq_of_toNat_eq ht), rfl, not_illegalWord_of_top (by simp [ht])⟩
  case h_4 | h_5 | h_7 | h_8 | h_13 =>
    exact ⟨formXkk_of_top (BitVec.eq_of_toNat_eq ht), rfl, not_illegalWord_of_top (by simp [ht])⟩
  case h_14 =>
    exact ⟨formXyn_of_top (BitVec.eq_of_toNat_eq ht), rfl, not_illegalWord_of_top (by simp [ht])⟩
  case h_6 => exact answers_lowNibbleZero (t := 0x5#4) (BitVec.eq_of_toNat_eq ht) (.inl rfl) rfl rfl
  case h_10 => exact answers_lowNibbleZero (t := 0x9#4) (BitVec.eq_of_toNat_eq ht) (.inr rfl) rfl rfl
  case h_9 => exact answers_decodeGroup8 (BitVec.eq_of_toNat_eq ht)
  case h_15 => exact answers_decodeGroupE (BitVec.eq_of_toNat_eq ht)
  case h_16 => exact answers_decodeGroupF (BitVec.eq_of_toNat_eq ht)
  case h_17 =>
    have := (fieldTop w).isLt
    simp only [imp_false] at *
    omega

end

/-- Settles O4: the decoder answers an instruction only to the word of a well-formed one. -/
theorem encodeOfDecodeIsTheWord : Obligations.EncodeOfDecodeIsTheWord := by
  intro w i h
  have hw := answers_decodeWord w
  rw [h] at hw
  obtain ⟨hword, hwf, -⟩ := hw
  exact ⟨hword, hwf⟩

/-- Settles O2: the decoder answers a report to an illegal word only, and an instruction to a legal word only. -/
theorem illegalWordsAreRejected : Obligations.IllegalWordsAreRejected := by
  intro w
  have hw := answers_decodeWord w
  cases h : decodeWord w with
  | ok i =>
    rw [h] at hw
    obtain ⟨-, hwf, legal⟩ := hw
    exact ⟨(absurd · legal), fun _ => ⟨i, rfl, hwf⟩⟩
  | error e =>
    rw [h] at hw
    obtain ⟨rfl, illegal⟩ := hw
    exact ⟨fun _ => rfl, (absurd illegal ·)⟩

/-! The opcode map in mask and match form: a word with a row's fixed bits is the row's form over its own fields. -/

theorem decodeWord_of_encode {w : Word} {i : Instr} (hwf : WellFormed i = true) (hw : encode i = w) :
    decodeWord w = .ok i :=
  hw ▸ decodeWord_encode hwf

section
open Laws
variable {w : Word}

/-- Rows told apart by the top nibble alone (R74). -/
theorem fieldTop_of_mask (t : Nibble) (h : w &&& 0xF000#16 = formNnn t 0) : fieldTop w = t := by
  rw [← formNnn_fields w, row_nnn] at h
  simpa using congrArg fieldTop h

/-- Rows told apart by the top nibble and the low byte (R74). -/
theorem formXkk_of_mask (t : Nibble) (kk : Byte) (h : w &&& 0xF0FF#16 = formXkk t 0 kk) :
    formXkk t (fieldX w) kk = w := by
  rw [← formXkk_fields w, row_x] at h
  have ht : fieldTop w = t := by simpa using congrArg fieldTop h
  have hk : fieldKk w = kk := by simpa using congrArg fieldKk h
  exact formXkk_of_top_kk ht hk

/-- Rows told apart by the top and the low nibble (R74). -/
theorem formXyn_of_mask (t n : Nibble) (h : w &&& 0xF00F#16 = formXyn t 0 0 n) :
    formXyn t (fieldX w) (fieldY w) n = w := by
  rw [← formXyn_fields w, row_xy] at h
  have ht : fieldTop w = t := by simpa using congrArg fieldTop h
  have hn : fieldN w = n := by simpa using congrArg fieldN h
  exact formXyn_of_top_n ht hn

end

/-- Settles O1: in each row the word is the encoding of the row's instruction, which decodes to it (rows in R74's order). -/
theorem decodeReadsTheOpcodeMap : Obligations.DecodeReadsTheOpcodeMap := by
  intro w
  exact ⟨fun h => h ▸ decodeWord_encode (i := .cls) rfl,
    fun h => h ▸ decodeWord_encode (i := .ret) rfl,
    fun h hcls hret => decodeWord_of_encode
      (wellFormed_sys_of_top (fieldTop_of_mask 0x0#4 h) hcls hret) (formNnn_of_top (fieldTop_of_mask 0x0#4 h)),
    fun h => decodeWord_of_encode rfl (formNnn_of_top (fieldTop_of_mask 0x1#4 h)),
    fun h => decodeWord_of_encode rfl (formNnn_of_top (fieldTop_of_mask 0x2#4 h)),
    fun h => decodeWord_of_encode rfl (formXkk_of_top (fieldTop_of_mask 0x3#4 h)),
    fun h => decodeWord_of_encode rfl (formXkk_of_top (fieldTop_of_mask 0x4#4 h)),
    fun h => decodeWord_of_encode rfl (formXyn_of_mask 0x5#4 0x0#4 h),
    fun h => decodeWord_of_encode rfl (formXkk_of_top (fieldTop_of_mask 0x6#4 h)),
    fun h => decodeWord_of_encode rfl (formXkk_of_top (fieldTop_of_mask 0x7#4 h)),
    fun h => decodeWord_of_encode rfl (formXyn_of_mask 0x8#4 0x0#4 h),
    fun h => decodeWord_of_encode rfl (formXyn_of_mask 0x8#4 0x1#4 h),
    fun h => decodeWord_of_encode rfl (formXyn_of_mask 0x8#4 0x2#4 h),
    fun h => decodeWord_of_encode rfl (formXyn_of_mask 0x8#4 0x3#4 h),
    fun h => decodeWord_of_encode rfl (formXyn_of_mask 0x8#4 0x4#4 h),
    fun h => decodeWord_of_encode rfl (formXyn_of_mask 0x8#4 0x5#4 h),
    fun h => decodeWord_of_encode rfl (formXyn_of_mask 0x8#4 0x6#4 h),
    fun h => decodeWord_of_encode rfl (formXyn_of_mask 0x8#4 0x7#4 h),
    fun h => decodeWord_of_encode rfl (formXyn_of_mask 0x8#4 0xE#4 h),
    fun h => decodeWord_of_encode rfl (formXyn_of_mask 0x9#4 0x0#4 h),
    fun h => decodeWord_of_encode rfl (formNnn_of_top (fieldTop_of_mask 0xA#4 h)),
    fun h => decodeWord_of_encode rfl (formNnn_of_top (fieldTop_of_mask 0xB#4 h)),
    fun h => decodeWord_of_encode rfl (formXkk_of_top (fieldTop_of_mask 0xC#4 h)),
    fun h => decodeWord_of_encode rfl (formXyn_of_top (fieldTop_of_mask 0xD#4 h)),
    fun h => decodeWord_of_encode rfl (formXkk_of_mask 0xE#4 0x9E#8 h),
    fun h => decodeWord_of_encode rfl (formXkk_of_mask 0xE#4 0xA1#8 h),
    fun h => decodeWord_of_encode rfl (formXkk_of_mask 0xF#4 0x07#8 h),
    fun h => decodeWord_of_encode rfl (formXkk_of_mask 0xF#4 0x0A#8 h),
    fun h => decodeWord_of_encode rfl (formXkk_of_mask 0xF#4 0x15#8 h),
    fun h => decodeWord_of_encode rfl (formXkk_of_mask 0xF#4 0x18#8 h),
    fun h => decodeWord_of_encode rfl (formXkk_of_mask 0xF#4 0x1E#8 h),
    fun h => decodeWord_of_encode rfl (formXkk_of_mask 0xF#4 0x29#8 h),
    fun h => decodeWord_of_encode rfl (formXkk_of_mask 0xF#4 0x33#8 h),
    fun h => decodeWord_of_encode rfl (formXkk_of_mask 0xF#4 0x55#8 h),
    fun h => decodeWord_of_encode rfl (formXkk_of_mask 0xF#4 0x65#8 h)⟩

end Sys2Proof
end

section
/-! PROOFS of the parts of a tick event (spec/40_step_cycle.md R90 to R92, R95 to R98, R100 to R103): the host's events, the
key merge, the timer step, a tick in each run state, and what a handler does to `pc` and to the run state. -/

namespace Sys2Proof.Machine

/-! The delivery of a tick's host input -/

/-- One entry is used up, its events applied in order (R91, R101). -/
theorem State.deliver_cons {s : State} {input : HostInput} {rest : List HostInput}
    (h : s.hostInputs = input :: rest) :
    s.deliver = input.events.foldl applyEvent { s with hostInputs := rest } := by
  simp [State.deliver, State.nextInput, h]

/-- The first event of an entry lands before the rest of the entry is delivered. -/
theorem State.deliver_event {s : State} {e : KeyEvent} {events : List KeyEvent} {stop : Bool} {rest : List HostInput}
    (h : s.hostInputs = { events := e :: events, stopReq := stop } :: rest) :
    s.deliver =
      State.deliver { applyEvent s e with hostInputs := { events := events, stopReq := stop } :: rest } := by
  rw [State.deliver_cons h, State.deliver_cons rfl]
  cases e <;> rfl

/-- Settles O59: the delivery is a fold over the events of the entry it uses up. -/
theorem deliveryAppliesTheEventsInOrder : Obligations.DeliveryAppliesTheEventsInOrder :=
  fun s => ⟨s.deliver_nil, fun _ _ => State.deliver_cons, fun _ _ _ _ => State.deliver_event,
    fun _ _ _ _ => State.deliver_event⟩

/-! What the delivery leaves alone: the fields that `deliver_run`, `deliver_pc` and `deliver_frames` do not name. -/

@[simp] theorem State.deliver_regs (s : State) : s.deliver.regs = s.regs := by
  obtain ⟨p, r, h⟩ := s.deliver_eq; rw [h]
@[simp] theorem State.deliver_iReg (s : State) : s.deliver.iReg = s.iReg := by
  obtain ⟨p, r, h⟩ := s.deliver_eq; rw [h]
@[simp] theorem State.deliver_sp (s : State) : s.deliver.sp = s.sp := by
  obtain ⟨p, r, h⟩ := s.deliver_eq; rw [h]
@[simp] theorem State.deliver_stack (s : State) : s.deliver.stack = s.stack := by
  obtain ⟨p, r, h⟩ := s.deliver_eq; rw [h]
@[simp] theorem State.deliver_dt (s : State) : s.deliver.dt = s.dt := by
  obtain ⟨p, r, h⟩ := s.deliver_eq; rw [h]
@[simp] theorem State.deliver_st (s : State) : s.deliver.st = s.st := by
  obtain ⟨p, r, h⟩ := s.deliver_eq; rw [h]
@[simp] theorem State.deliver_px (s : State) : s.deliver.px = s.px := by
  obtain ⟨p, r, h⟩ := s.deliver_eq; rw [h]
@[simp] theorem State.deliver_tickCtr (s : State) : s.deliver.tickCtr = s.tickCtr := by
  obtain ⟨p, r, h⟩ := s.deliver_eq; rw [h]
@[simp] theorem State.deliver_fault (s : State) : s.deliver.fault = s.fault := by
  obtain ⟨p, r, h⟩ := s.deliver_eq; rw [h]
@[simp] theorem State.deliver_cfg (s : State) : s.deliver.cfg = s.cfg := by
  obtain ⟨p, r, h⟩ := s.deliver_eq; rw [h]
@[simp] theorem State.deliver_randomCtr (s : State) : s.deliver.randomCtr = s.randomCtr := by
  obtain ⟨p, r, h⟩ := s.deliver_eq; rw [h]
@[simp] theorem State.deliver_v (s : State) (r : Nibble) : s.deliver.v r = s.v r := by simp [State.v]

/-! Key events and the merge, bit by bit -/

@[simp] theorem keyBit_bit (k : Fin 16) (j : Nat) : (keyBit k).getLsbD j = decide (j = k.val) := by
  have hk := k.isLt
  simp only [keyBit, BitVec.getLsbD_shiftLeft, BitVec.getLsbD_one]
  by_cases hj : j = k.val
  · simp [hj]
  · simp [hj]; omega

/-- A key is held after a merge if it was pressed, or was held and not released (R91). -/
theorem State.mergeKeys_keysHeld_bit (s : State) {j : Nat} (hj : j < 16) :
    s.mergeKeys.keysHeld.getLsbD j =
      (s.bufPress.getLsbD j || (s.keysHeld.getLsbD j && !s.bufRelease.getLsbD j)) := by
  simp only [State.mergeKeys_keysHeld, BitVec.getLsbD_or, BitVec.getLsbD_and, BitVec.getLsbD_not, hj, decide_true,
    Bool.true_and]
  cases s.bufPress.getLsbD j
  · simp
  · simp

/-- A merge makes every new key a held one, whatever was held before (R30, R91). -/
theorem State.mergeKeys_newIsHeld (s : State) : s.mergeKeys.keysNew &&& ~~~s.mergeKeys.keysHeld = 0 := by
  apply BitVec.eq_of_getLsbD_eq; intro j hj
  rw [BitVec.getLsbD_and, BitVec.getLsbD_not, s.mergeKeys_keysHeld_bit hj, State.mergeKeys_keysNew]
  cases s.bufPress.getLsbD j
  · simp
  · simp

/-- Settles O11: each buffer update is one of `keyBit`, and the merge works on each bit by itself. -/
theorem keyEventsAndMergeBitByBit : Obligations.KeyEventsAndMergeBitByBit := by
  refine fun s => ⟨fun k j hj => ⟨?_, ?_, ?_, rfl⟩, fun k => ⟨⟨_, _, rfl⟩, _, rfl⟩, fun j hj => ⟨rfl, ?_, ?_, ?_⟩,
    ⟨_, _, _, _, rfl⟩⟩
  · simp
  · simp only [hostPress_bufRelease, BitVec.getLsbD_and, BitVec.getLsbD_not, keyBit_bit, hj, decide_true, Bool.true_and]
  · simp
  · exact s.mergeKeys_keysHeld_bit hj
  · simp
  · simp

/-- Settles O12: the first merge keeps the release of a key pressed in the same interval, and the second applies it. -/
theorem instantPressIsSeenOnce : Obligations.InstantPressIsSeenOnce := by
  intro s k
  refine ⟨?_, ?_, ?_, ?_, s.mergeKeys_newIsHeld⟩
  · simp
  · simp
  · rw [State.mergeKeys_keysHeld_bit _ k.isLt]
    simp
  · simp

/-! The timer step -/

theorem countDown_toNat (t : Byte) : (countDown t).toNat = t.toNat - 1 := by
  unfold countDown
  split
  · simp [*]
  · bv_omega

/-- The tick that completes `TIMER_DIV` (R92). -/
theorem State.timerStep_at_div {s : State} (h : s.tickCtr + 1 = s.cfg.timerDiv) :
    s.timerStep = { s with tickCtr := 0, dt := countDown s.dt, st := countDown s.st } := if_pos h

/-- Every other tick (R92). -/
theorem State.timerStep_off_div {s : State} (h : s.tickCtr + 1 ≠ s.cfg.timerDiv) :
    s.timerStep = { s with tickCtr := s.tickCtr + 1 } := if_neg h

/-- Settles O13: the two cases of the timer step. -/
theorem timersCountDownEveryDivTicks : Obligations.TimersCountDownEveryDivTicks := by
  intro s
  refine ⟨fun h => ?_, fun h => ?_, ?_⟩
  · rw [State.timerStep_at_div h]
    exact ⟨rfl, countDown_toNat s.dt, countDown_toNat s.st⟩
  · rw [State.timerStep_off_div h]
    exact ⟨rfl, rfl, rfl⟩
  · by_cases h : s.tickCtr + 1 = s.cfg.timerDiv
    · exact ⟨_, _, _, State.timerStep_at_div h⟩
    · exact ⟨_, _, _, State.timerStep_off_div h⟩

/-! One tick event in each run state; `step_fullTick` is the full tick -/

/-- A stop request ends a tick and a wait poll before they begin (R102). -/
theorem step_stop {s : State} (hrun : s.run = .running ∨ s.run = .waitKey) (hs : s.nextInput.stopReq = true) :
    step s = .next (s.deliver.setRun .stopped) := by
  obtain h | h := hrun <;> simp [step, tickEvent, tick, h, hs]

/-- A halted or stopped core only takes its events (R103). -/
theorem step_idle {s : State} (hrun : s.run = .halted ∨ s.run = .stopped) : step s = .next s.deliver := by
  obtain h | h := hrun <;> simp [step, tickEvent, tick, h]

/-- A waiting core polls the keys (R100). -/
theorem step_waitKey {s : State} (hrun : s.run = .waitKey) (hs : s.nextInput.stopReq = false) :
    step s = waitPoll s.deliver.mergeKeys := by
  simp [step, tickEvent, tick, hrun, hs]

/-- A poll with no new key does nothing more (R100). -/
theorem waitPoll_noKey {s : State} (hk : s.keysNew = 0) : waitPoll s = .next s := if_pos hk

/-- A poll with a new key completes the instruction at `pc` (R100). -/
theorem waitPoll_newKey {s : State} (hk : s.keysNew ≠ 0) (hpc : s.pc.toNat < 4096) :
    waitPoll s = .next ((s.takeKey ((s.byte s.pc.toNat).extractLsb' 0 4)).setRun .running) :=
  (if_neg hk).trans (if_pos hpc)

/-- Settles O8: that tick is the delivery and a move of the run state. -/
theorem stopRequestStopsAtTickStart : Obligations.StopRequestStopsAtTickStart := fun _ => step_stop

/-- Settles O9: an idle tick is the delivery, and `deliver_eq` is its frame. -/
theorem haltedAndStoppedStay : Obligations.HaltedAndStoppedStay :=
  fun s hrun => ⟨step_idle hrun, s.deliver_eq, fun h => by rw [step_idle hrun, s.deliver_nil h]⟩

/-- Settles O10: the poll stores the least set bit of the merged `keys_new` in the register that the waiting instruction
names. -/
theorem waitPollTakesTheLowestNewKey : Obligations.WaitPollTakesTheLowestNewKey := by
  intro s hrun hs u
  have hstep : step s = waitPoll u := step_waitKey hrun hs
  refine ⟨by simp [u, SameTimers], fun hk => hstep.trans (waitPoll_noKey hk), fun hk hpc => ?_⟩
  obtain ⟨k, hlt, hset, hleast, hlowest⟩ := lowestKey_spec u.keysNew hk
  have hpoll := hstep.trans (waitPoll_newKey hk (by simpa [u] using hpc))
  refine ⟨k, _, hlt, hset, hleast, hpoll, fun x => ?_, ?_⟩
  · have hx : u.byte u.pc.toNat = s.byte s.pc.toNat := by simp [u]
    have hv : u.v x = s.v x := by simp [u]
    rw [hx, State.setRun_v, State.takeKey, State.advance_v, State.setV_v, hlowest, hv]
  · simp [State.takeKey, SameMemory, SameDisplay, SameStack, SameTimers, SameKeys, SameHost, u]

/-! The full tick -/

/-- Settles O6: `step_executes`, and the frames of the three parts before the fetch. -/
theorem stepRunsTheDecodedInstruction : Obligations.StepRunsTheDecodedInstruction := by
  intro s i hfull hpc hw
  refine ⟨step_executes hfull hpc hw, ?_⟩
  simp [beforeFetch, SameRegs, SameStack, SameMemory, SameDisplay, SameRun]

/-! What a handler does to the run state and to `pc` -/

namespace Effect
variable {s t : State} {i : Instr}

/-- Only LD Vx, K makes a running engine wait (R33, R171). -/
theorem waits (h : Effect s i t) (hs : s.run ≠ .waitKey) (ht : t.run = .waitKey) : ∃ x, i = .ldVxK x := by
  cases h with
  | wait => exact ⟨_, rfl⟩
  | outOfRange | overflow | underflow => simp at ht
  | _ => exact absurd (by simpa using ht) hs

/-- Off the four direct sets a handler that completes advances or skips, and any other keeps `pc` (R96 to R98, R106). -/
theorem pc (h : Effect s i t) (hrun : s.run = .running) (hjp : ∀ n, i ≠ .jp n) (hcall : ∀ n, i ≠ .call n)
    (hret : i ≠ .ret) (hjpV0 : ∀ n, i ≠ .jpV0 n) :
    (t.run = .running ∧ (t.pc = s.pc + 2 ∨ (t.pc = s.pc + 4 ∧ IsSkip i))) ∨ (t.run ≠ .running ∧ t.pc = s.pc) := by
  cases h with
  | outOfRange | overflow | underflow | wait => exact .inr ⟨by simp, rfl⟩
  | skip h => exact .inl ⟨hrun, .inr ⟨rfl, h⟩⟩
  | jp => exact absurd rfl (hjp _)
  | jpV0 => exact absurd rfl (hjpV0 _)
  | call => exact absurd rfl (hcall _)
  | ret => exact absurd rfl hret
  | _ => exact .inl ⟨by simpa using hrun, .inl (by simp)⟩

end Effect

/-- Settles O51: an instruction always answers, and `Effect.run` and `Effect.waits` say in which run state. -/
theorem everyHandlerEndsInItsTick : Obligations.EveryHandlerEndsInItsTick := by
  intro i s hrun
  obtain ⟨t, ht⟩ := exec_next i s
  have he := exec_effect ht
  refine ⟨t, ht, ?_⟩
  obtain h | h | ⟨h, -⟩ := he.run
  · exact .inl (h.trans hrun)
  · exact .inr (.inl h)
  · exact .inr (.inr ⟨h, he.waits (by simp [hrun]) h⟩)

/-- Settles O52: a handler that is none of the four either completes, with an advance or a skip, or keeps `pc`. -/
theorem onlyFourHandlersSetPcDirectly : Obligations.OnlyFourHandlersSetPcDirectly := by
  intro i s t hrun ht hjp hcall hret hjpV0
  obtain ⟨hr, hpc⟩ | ⟨hr, hpc⟩ := (exec_effect ht).pc hrun hjp hcall hret hjpV0
  · exact ⟨fun _ => hpc, fun hn => absurd hr hn⟩
  · exact ⟨fun hn => absurd hn hr, fun _ => hpc⟩

end Sys2Proof.Machine
end

section
/-! PROOFS of control flow (spec/41_control_flow.md R110 to R114): what SYS, RET, JP, CALL and JP V0 write and what they
leave alone, from rules for `pc` and for the return stack. -/

namespace Sys2Proof.Machine

/-! The program counter -/

/-- A set of `pc`, be it `advance`, `skip` or a jump, leaves everything else alone (R96 to R98). -/
theorem State.setPc_onlyPc (s : State) (a : Word) : OnlyPc s (s.setPc a) := by
  simp [OnlyPc, OnlyRegsAndPc, SameRegs, SameMemory, SameDisplay, SameControl, SameStack, SameTimers, SameKeys,
    SameRun, SameHost]

@[simp] theorem zextNnn_toNat (nnn : Addr12) : (zextNnn nnn).toNat = nnn.toNat := by
  have h := nnn.isLt
  simp only [zextNnn]
  bv_omega

/-- The sum is at most 0x10FE, so 16 bits hold it without a wrap (R114, D31). -/
theorem jumpV0Target_toNat (s : State) (nnn : Addr12) :
    (jumpV0Target s nnn).toNat = nnn.toNat + (s.v 0#4).toNat := by
  have hnnn := nnn.isLt
  have hv := (s.v 0#4).isLt
  simp only [jumpV0Target, zextNnn, zextByte]
  bv_omega

/-! The return stack -/

theorem State.drop_sp_val {s : State} (h : s.sp.val ≠ 0) : s.drop.sp.val = s.sp.val - 1 :=
  Fin.val_sub_one_of_ne_zero fun e => h (congrArg Fin.val e)

theorem State.top_eq (s : State) : s.top = s.stack[s.sp.val - 1]'(by omega) := by
  have hlt : s.sp.val - 1 < 16 := by omega
  simp [State.top, Vector.getD, hlt]

theorem State.push_sp_val {s : State} (a : Word) (h : s.sp.val < 16) : (s.push a).sp.val = s.sp.val + 1 :=
  Fin.val_add_one_of_lt (Fin.lt_def.mpr h)

theorem State.push_stack_self {s : State} (a : Word) (h : s.sp.val < 16) : (s.push a).stack[s.sp.val] = a := by
  simp

theorem State.push_stack_other (s : State) (a : Word) {k : Fin 16} (h : k.val ≠ s.sp.val) :
    (s.push a).stack[k] = s.stack[k] := by
  simp [h.symm]

/-! The two handlers with a fatal condition, in their normal case -/

theorem exec_ret_of_nonempty {s : State} (h : s.sp.val ≠ 0) : exec .ret s = .next (s.drop.setPc s.top) :=
  if_neg fun e => h (congrArg Fin.val e)

theorem exec_call_of_notFull {s : State} (nnn : Addr12) (h : s.sp.val < 16) :
    exec (.call nnn) s = .next ((s.push (s.pc + 2)).setPc (zextNnn nnn)) :=
  if_neg fun e => absurd (congrArg Fin.val e) (Nat.ne_of_lt h)

/-! The obligations -/

/-- Settles O14: the handler is `advance`, whatever `nnn` is. -/
theorem sysOnlyAdvances : Obligations.SysOnlyAdvances :=
  fun _ s => ⟨s.advance, rfl, s.advance_pc, s.setPc_onlyPc _⟩

/-- Settles O15: the popped entry is read before `SP` is lowered, and keeps its value. -/
theorem retPopsTheReturnAddress : Obligations.RetPopsTheReturnAddress := by
  refine fun s h => ⟨_, exec_ret_of_nonempty h, State.drop_sp_val h, s.top_eq, rfl, ?_⟩
  simp [SameRegs, SameMemory, SameDisplay, SameTimers, SameKeys, SameRun, SameHost]

/-- Settles O16: the word is the encoding of JP nnn, and zero extension keeps the value of `nnn`. -/
theorem jpSetsPc : Obligations.JpSetsPc :=
  fun nnn => ⟨decodeWord_encode (i := .jp nnn) rfl,
    fun s => ⟨s.setPc (zextNnn nnn), rfl, zextNnn_toNat nnn, s.setPc_onlyPc _⟩⟩

/-- Settles O17: the handler sets `pc` to a sum that does not wrap. -/
theorem jpV0AddsRegisterZero : Obligations.JpV0AddsRegisterZero :=
  fun nnn s => ⟨s.setPc (jumpV0Target s nnn), rfl, jumpV0Target_toNat s nnn, s.setPc_onlyPc _⟩

/-- Settles O18: the push writes the one entry at the old `SP`, then the jump sets `pc`. -/
theorem callPushesTheNextAddress : Obligations.CallPushesTheNextAddress := by
  refine fun nnn s h => ⟨_, exec_call_of_notFull nnn h, zextNnn_toNat nnn, State.push_sp_val (s.pc + 2) h,
    State.push_stack_self (s.pc + 2) h, fun _ hk => s.push_stack_other (s.pc + 2) hk, ?_⟩
  simp [SameRegs, SameMemory, SameDisplay, SameTimers, SameKeys, SameRun, SameHost]

end Sys2Proof.Machine
end

section
/-! PROOFS of the conditional skips (spec/42_skips.md R120 to R125): every one of the six handlers is `skipIf` of its
condition, so what they share is proved of `skipIf`. -/

namespace Sys2Proof.Machine

/-! What `skipIf` does (R97, R98) -/

theorem State.skipIf_onlyPc (s : State) (c : Bool) : OnlyPc s (s.skipIf c) := by
  cases c
  · exact s.setPc_onlyPc (s.pc + 2)
  · exact s.setPc_onlyPc (s.pc + 4)

theorem State.skipIf_pc (s : State) (c : Bool) : (s.skipIf c).pc = if c then s.pc + 4 else s.pc + 2 := by
  cases c <;> rfl

/-- The condition of the two SE (R120, R122). -/
theorem State.skipIf_eq_pc (s : State) (a b : Byte) :
    (s.skipIf (a == b)).pc = if a = b then s.pc + 4 else s.pc + 2 := by
  simp only [State.skipIf_pc, beq_iff_eq]

/-- The condition of the two SNE (R121, R123). -/
theorem State.skipIf_ne_pc (s : State) (a b : Byte) :
    (s.skipIf (a != b)).pc = if a = b then s.pc + 2 else s.pc + 4 := by
  simp only [State.skipIf_pc, bne_iff_ne, ne_eq, ite_not]

/-- A byte names a pressed key when it is a key number and that key is held (R124, R125, D15). -/
theorem keyPressed_iff (held : Word) (v : Byte) :
    keyPressed held v = true ↔ v.toNat ≤ 15 ∧ held.getLsbD v.toNat = true := by
  simp [keyPressed]

/-- An illegal word decodes to no instruction (R75). -/
theorem decodeWord_ne_ok_of_illegal {w : Word} (h : IllegalWord w) (i : Instr) : decodeWord w ≠ .ok i := by
  simp [(illegalWordsAreRejected w).1 h]

/-- Groups 0x5 and 0x9 hold no instruction with a low nibble other than 0 (R75). -/
theorem illegalWord_formXyn {t x y n : Nibble} (ht : t = 0x5#4 ∨ t = 0x9#4) (hn : n ≠ 0#4) :
    IllegalWord (formXyn t x y n) := by
  rw [illegalWord_iff_of_top_5_or_9 (by simpa using ht), fieldN_formXyn]
  exact hn

/-! The obligations -/

/-- Settles O21: each word is the encoding of its instruction, and the handler is `skipIf` of the comparison. -/
theorem immediateSkips : Obligations.ImmediateSkips :=
  fun x kk => ⟨decodeWord_encode (i := .seImm x kk) rfl, decodeWord_encode (i := .sneImm x kk) rfl,
    fun s => ⟨⟨_, rfl, s.skipIf_eq_pc (s.v x) kk, s.skipIf_onlyPc _⟩,
      ⟨_, rfl, s.skipIf_ne_pc (s.v x) kk, s.skipIf_onlyPc _⟩⟩⟩

/-- Settles O22: as for the immediate skips, and a word with a non-zero low nibble is one of R75's illegal words. -/
theorem registerSkips : Obligations.RegisterSkips :=
  fun x y => ⟨decodeWord_encode (i := .seReg x y) rfl, decodeWord_encode (i := .sneReg x y) rfl,
    fun _ hn => ⟨decodeWord_ne_ok_of_illegal (illegalWord_formXyn (.inl rfl) hn),
      decodeWord_ne_ok_of_illegal (illegalWord_formXyn (.inr rfl) hn)⟩,
    fun s => ⟨⟨_, rfl, s.skipIf_eq_pc (s.v x) (s.v y), s.skipIf_onlyPc _⟩,
      ⟨_, rfl, s.skipIf_ne_pc (s.v x) (s.v y), s.skipIf_onlyPc _⟩⟩⟩

/-- Settles O23: SKP is `skipIf` of the key test, SKNP of its negation. -/
theorem keySkips : Obligations.KeySkips := by
  intro x s
  rw [← keyPressed_iff]
  refine ⟨⟨s.skipIf (keyPressed s.keysHeld (s.v x)), rfl, fun h => ?_, fun h => ?_, s.skipIf_onlyPc _⟩,
    ⟨s.skipIf (!keyPressed s.keysHeld (s.v x)), rfl, fun h => ?_, fun h => ?_, s.skipIf_onlyPc _⟩⟩
  all_goals simp [State.skipIf_pc, h]

end Sys2Proof.Machine
end

section
/-! PROOFS of the register loads, the ALU and RND (spec/43_load_alu.md R130 to R142): every handler
is `writeResult` or `writeFlagged` of a value computed from the old registers, so the frames are proved of these two, and
what is left for an instruction is the arithmetic of its result and flag. -/

namespace Sys2Proof.Machine

/-! A result without a flag (R130 to R135, R141) -/

theorem State.writeResult_v (s : State) (x r : Nibble) (b : Byte) :
    (s.writeResult x b).v r = if r = x then b else s.v r := s.setV_v x r b

theorem State.writeResult_dest (s : State) (x : Nibble) (b : Byte) : (s.writeResult x b).v x = b :=
  s.setV_v_same x b

/-- All but the destination: no other register changes, `VF` among them (D7), and `pc` advances. -/
theorem State.writeResult_frame (s : State) (x : Nibble) (b : Byte) :
    (∀ r, r ≠ x → (s.writeResult x b).v r = s.v r) ∧ (s.writeResult x b).pc = s.pc + 2 ∧
      OnlyRegsAndPc s (s.writeResult x b) :=
  ⟨fun r => s.setV_v_other x r b, rfl, ((s.setV x b).setPc_onlyPc (s.pc + 2)).2⟩

/-! A result and then a flag (R136 to R140) -/

/-- The flag is written last, so it is what `VF` holds, whatever the destination is (D6). -/
theorem State.writeFlagged_vf (s : State) (x : Nibble) (b : Byte) (c : Bool) :
    ((s.writeFlagged x b c).v 15#4).toNat = c.toNat := by
  have hvf : (s.writeFlagged x b c).v 15#4 = if c then 1 else 0 := (s.setV x b).setFlag_v c 15#4
  rw [hvf]
  cases c <;> rfl

theorem State.writeFlagged_v {r : Nibble} (s : State) (x : Nibble) (b : Byte) (c : Bool) (hr : r ≠ 15#4) :
    (s.writeFlagged x b c).v r = if r = x then b else s.v r :=
  calc (s.writeFlagged x b c).v r
    _ = (s.setV x b).v r := ((s.setV x b).setFlag_v c r).trans (if_neg hr)
    _ = if r = x then b else s.v r := s.setV_v x r b

theorem State.writeFlagged_dest {x : Nibble} (s : State) (b : Byte) (c : Bool) (hx : x ≠ 15#4) :
    (s.writeFlagged x b c).v x = b :=
  (s.writeFlagged_v x b c hx).trans (if_pos rfl)

/-- All but the destination and `VF`. -/
theorem State.writeFlagged_frame (s : State) (x : Nibble) (b : Byte) (c : Bool) :
    (∀ r, r ≠ x → r ≠ 15#4 → (s.writeFlagged x b c).v r = s.v r) ∧ (s.writeFlagged x b c).pc = s.pc + 2 ∧
      OnlyRegsAndPc s (s.writeFlagged x b c) :=
  ⟨fun _ hrx hr => (s.writeFlagged_v x b c hr).trans (if_neg hrx), rfl,
    (((s.setV x b).setFlag c).setPc_onlyPc (s.pc + 2)).2⟩

/-! The results and flags as numbers -/

theorem carryFlag_toNat (a b : Byte) : (carryFlag a b).toNat = if a.toNat + b.toNat > 255 then 1 else 0 :=
  Bool.cond_decide _ 1 0

theorem greaterFlag_toNat (a b : Byte) : (greaterFlag a b).toNat = if a.toNat > b.toNat then 1 else 0 :=
  Bool.cond_decide _ 1 0

theorem shrFlag_toNat (a : Byte) : (shrFlag a).toNat = a.toNat % 2 := by
  have hbit : (shrFlag a).toNat = a.toNat / 2 ^ 0 % 2 := Nat.toNat_testBit a.toNat 0
  omega

/-- Bit 7 is the top bit of a byte, so nothing stands above it. -/
theorem shlFlag_toNat (a : Byte) : (shlFlag a).toNat = a.toNat / 128 := by
  have hbit : (shlFlag a).toNat = a.toNat / 2 ^ 7 % 2 := Nat.toNat_testBit a.toNat 7
  have ha := a.isLt
  omega

theorem byteSub_toInt (a b : Byte) : ((a - b).toNat : Int) = (a.toNat - b.toNat : Int) % 256 := by
  have hsub : (a - b).toNat = (256 - b.toNat + a.toNat) % 256 := BitVec.toNat_sub a b
  have hb := b.isLt
  omega

/-! The obligations -/

/-- Settles O27: the sum of bytes wraps at 256, and the carry says whether it did. -/
theorem addSetsCarry : Obligations.AddSetsCarry := by
  refine fun x y s => ⟨_, rfl, ?_, fun hx => ?_, s.writeFlagged_frame x _ _⟩
  · rw [State.writeFlagged_vf, carryFlag_toNat]
  · rw [State.writeFlagged_dest _ _ _ hx]
    exact BitVec.toNat_add (s.v x) (s.v y)

/-- Settles O28: SUBN is SUB with the operands exchanged. -/
theorem subtractionsSetStrictFlag : Obligations.SubtractionsSetStrictFlag := by
  refine fun x y s => ⟨⟨_, rfl, ?_, fun hx => ?_, s.writeFlagged_frame x _ _⟩,
    ⟨_, rfl, ?_, fun hx => ?_, s.writeFlagged_frame x _ _⟩⟩
  · rw [State.writeFlagged_vf, greaterFlag_toNat]
  · rw [State.writeFlagged_dest _ _ _ hx, byteSub_toInt]
  · rw [State.writeFlagged_vf, greaterFlag_toNat]
  · rw [State.writeFlagged_dest _ _ _ hx, byteSub_toInt]

/-- Settles O29: the shifts halve and double, and the flag is the bit at the end that falls out. -/
theorem shiftsSetTheBitShiftedOut : Obligations.ShiftsSetTheBitShiftedOut := by
  refine fun x y s => ⟨⟨_, rfl, ?_, fun hx => ?_, s.writeFlagged_frame x _ _⟩,
    ⟨_, rfl, ?_, fun hx => ?_, s.writeFlagged_frame x _ _⟩⟩
  · rw [State.writeFlagged_vf, shrFlag_toNat]
  · rw [State.writeFlagged_dest _ _ _ hx, BitVec.toNat_ushiftRight, Nat.shiftRight_one]
  · rw [State.writeFlagged_vf, shlFlag_toNat]
  · rw [State.writeFlagged_dest _ _ _ hx, BitVec.toNat_shiftLeft, Nat.shiftLeft_eq, mul_comm]

/-- Settles O24: the word is the encoding of LD Vx, kk, and the handler is `writeResult` of the immediate. -/
theorem loadImmediate : Obligations.LoadImmediate :=
  fun x kk => ⟨decodeWord_encode (i := .ldImm x kk) rfl,
    fun s => ⟨_, rfl, fun r => s.writeResult_v x r kk, (s.writeResult_frame x kk).2⟩⟩

/-- Settles O25: the word is the encoding of LD Vx, Vy, and the handler is `writeResult` of the old `V[y]`. -/
theorem copyRegister : Obligations.CopyRegister :=
  fun x y => ⟨decodeWord_encode (i := .ldReg x y) rfl,
    fun s => ⟨_, rfl, fun r => s.writeResult_v x r (s.v y), (s.writeResult_frame x (s.v y)).2⟩⟩

/-- Settles O26: one frame for the four, and the library's rules for the sum and for each bit of the logic. -/
theorem addImmediateAndLogic : Obligations.AddImmediateAndLogic := by
  refine fun x y kk s => ⟨⟨_, rfl, ?_, s.writeResult_frame x _⟩, ⟨_, rfl, fun k => ?_, s.writeResult_frame x _⟩,
    ⟨_, rfl, fun k => ?_, s.writeResult_frame x _⟩, ⟨_, rfl, fun k => ?_, s.writeResult_frame x _⟩⟩
  · rw [State.writeResult_dest]
    exact BitVec.toNat_add (s.v x) kk
  · rw [State.writeResult_dest, BitVec.getLsbD_or]
  · rw [State.writeResult_dest, BitVec.getLsbD_and]
  · rw [State.writeResult_dest, BitVec.getLsbD_xor]

/-- Settles O30: RND is `writeResult` of the masked byte on the state with the counter advanced. -/
theorem randomIsMasked : Obligations.RandomIsMasked := by
  intro x kk s
  have hdest := s.drawRandom.writeResult_dest x (randomMasked s kk)
  obtain ⟨hother, hpc, hI, hmem, hdisplay, hstack, htimers, hkeys, hrun, hhost, hctr⟩ :=
    s.drawRandom.writeResult_frame x (randomMasked s kk)
  refine ⟨_, rfl, hdest, ?_, hother, hpc, hctr, hI, hmem, hdisplay, hstack, htimers, hkeys, hrun, hhost⟩
  rw [hdest, randomMasked, BitVec.and_assoc, BitVec.and_not_self]
  exact BitVec.and_zero

end Sys2Proof.Machine
end

section
/-! PROOFS of the address register and the memory transfers (spec/44_index_memory.md R150 to R155): three handlers are
`setI` of a computed address, two are `store` of a list of bytes and one is `loadRegs`, so the frames are proved of these
operations, and what is left for an instruction is its address or its bytes. -/

namespace Sys2Proof.Machine

/-! The address register (R150 to R152) -/

theorem State.setI_onlyIAndPc (s : State) (a : Word) : OnlyIAndPc s (s.setI a).advance :=
  have ⟨hregs, _, hrest⟩ := (s.setI a).setPc_onlyPc (s.pc + 2)
  ⟨hregs, hrest⟩

/-- The sum of ADD I wraps at 16 bits (R151, D9). -/
theorem indexPlus_toNat (i : Word) (b : Byte) : (indexPlus i b).toNat = (i.toNat + b.toNat) % 65536 := by
  have hzext : (zextByte b).toNat = b.toNat := BitVec.toNat_setWidth_of_le (by decide)
  rw [indexPlus, BitVec.toNat_add, hzext]

/-- A glyph table that fits below 512 puts every glyph of a digit at an address of 16 bits (R4, R152). -/
theorem fontAddr_toNat {c : Config} {v : Byte} (hc : c.fontBase ≤ 432) (hv : v.toNat ≤ 15) :
    (fontAddr c v).toNat = c.fontBase + 5 * v.toNat := by
  rw [fontAddr, if_pos hv, glyphBytes, BitVec.toNat_ofNat]
  exact Nat.mod_eq_of_lt (by omega)

/-! Stores and loads at `I` (R153 to R155) -/

theorem State.store_onlyMemoryAndPc (s : State) (a : Nat) (bs : List Byte) :
    OnlyMemoryAndPc s (s.store a bs).advance :=
  have ⟨hregs, hI, _, hrest⟩ := (s.store a bs).setPc_onlyPc (s.pc + 2)
  ⟨hregs, hI, hrest⟩

/-- A store leaves every byte outside its range alone (R53). -/
theorem State.byte_store_other (s : State) (a : Nat) (bs : List Byte) {i : Nat} (h : i < a ∨ a + bs.length ≤ i) :
    (s.store a bs).byte i = s.byte i :=
  Memory.read_storeBytes_other bs s.mem a i h

/-- The three bytes of LD B as numbers: a digit needs no more than a byte (R153). -/
theorem bcdDigits_toNat (v : Byte) :
    (bcdDigits v)[0].toNat = v.toNat / 100 ∧ (bcdDigits v)[1].toNat = v.toNat / 10 % 10 ∧
      (bcdDigits v)[2].toNat = v.toNat % 10 := by
  have hv := v.isLt
  simp only [bcdDigits, List.getElem_cons_zero, List.getElem_cons_succ, BitVec.toNat_ofNat]
  omega

/-- Where the digits go, in the order hundreds, tens, units (R153). -/
theorem State.byte_store_bcdDigits {s : State} (a : Nat) (v : Byte) (hm : Memory.wf s.mem = true) :
    ((s.store a (bcdDigits v)).byte a).toNat = v.toNat / 100 ∧
      ((s.store a (bcdDigits v)).byte (a + 1)).toNat = v.toNat / 10 % 10 ∧
      ((s.store a (bcdDigits v)).byte (a + 2)).toNat = v.toNat % 10 := by
  have hread (k : Nat) (hk : k < 3) : (s.store a (bcdDigits v)).byte (a + k) = (bcdDigits v)[k] :=
    Memory.read_storeBytes _ _ _ _ (Memory.rises_of_wf hm) hk
  obtain ⟨hhundreds, htens, hunits⟩ := bcdDigits_toNat v
  exact ⟨(congrArg BitVec.toNat (hread 0 (by decide))).trans hhundreds,
    (congrArg BitVec.toNat (hread 1 (by decide))).trans htens,
    (congrArg BitVec.toNat (hread 2 (by decide))).trans hunits⟩

/-- All but the registers: `pc` advances, and memory and `I` stay as they are (R155). -/
theorem State.loadRegs_frame (s : State) (x : Nibble) (a : Nat) :
    (s.loadRegs x a).advance.pc = s.pc + 2 ∧ OnlyRegsAndPc s (s.loadRegs x a).advance := by
  simp [OnlyRegsAndPc, SameMemory, SameDisplay, SameControl, SameStack, SameTimers, SameKeys, SameRun, SameHost]

/-- LD B, Vx with its three bytes inside memory (R153). -/
theorem exec_ldB_inside {x : Nibble} {s : State} (h : s.iReg.toNat + 2 ≤ 4095) :
    exec (.ldB x) s = .next (s.store s.iReg.toNat (bcdDigits (s.v x))).advance :=
  withRange_inside _ _ _ _ (.inr (by omega))

/-- LD Vx, [I] with its block inside memory (R155). -/
theorem exec_ldVxMem_inside {x : Nibble} {s : State} (h : s.iReg.toNat + x.toNat ≤ 4095) :
    exec (.ldVxMem x) s = .next (s.loadRegs x s.iReg.toNat).advance :=
  withRange_inside _ _ _ _ (.inr (by omega))

/-! The obligations -/

/-- Settles O34: in range the handler is a store of the three digits. -/
theorem bcdStoresThreeDigits : Obligations.BcdStoresThreeDigits := by
  intro x s hin
  exact ⟨_, exec_ldB_inside hin, State.byte_store_bcdDigits s.iReg.toNat (s.v x),
    fun _ => s.byte_store_other s.iReg.toNat (bcdDigits (s.v x)), rfl, s.store_onlyMemoryAndPc _ _⟩

/-- Settles O35: in range the handler is a store of the first `x + 1` registers. -/
theorem blockStoreWritesRegisters : Obligations.BlockStoreWritesRegisters := by
  intro x s hin
  refine ⟨_, exec_ldMemVx_inside hin, fun hm k hk => State.byte_store_regsUpTo _ hm hk, fun a ha => ?_, rfl,
    s.store_onlyMemoryAndPc _ _⟩
  exact s.byte_store_other _ _ (by rwa [length_regsUpTo])

/-- Settles O36: in range the handler is `loadRegs`, which reads `V[k]` for `k` up to `x` and keeps the others. -/
theorem blockLoadReadsRegisters : Obligations.BlockLoadReadsRegisters := by
  intro x s hin
  refine ⟨_, exec_ldVxMem_inside hin, fun k hk => ?_, fun k hk => ?_, s.loadRegs_frame x _⟩
  · rw [State.advance_v, State.loadRegs_v, if_pos hk]
  · rw [State.advance_v, State.loadRegs_v, if_neg (Nat.not_le.mpr hk)]

/-- Settles O31: the word is the encoding of LD I, nnn, and zero extension keeps the value of `nnn`. -/
theorem loadIndex : Obligations.LoadIndex :=
  fun nnn => ⟨decodeWord_encode (i := .ldI nnn) rfl,
    fun s => ⟨_, rfl, zextNnn_toNat nnn, rfl, s.setI_onlyIAndPc _⟩⟩

/-- Settles O32: the handler is `setI` of the wrapped sum. -/
theorem addIndexWrapsAt65536 : Obligations.AddIndexWrapsAt65536 :=
  fun x s => ⟨_, rfl, indexPlus_toNat s.iReg (s.v x), rfl, s.setI_onlyIAndPc _⟩

/-- Settles O33: the handler is `setI` of the glyph address, which for a digit is the sum without a wrap. -/
theorem glyphAddressOfDigit : Obligations.GlyphAddressOfDigit :=
  fun _ s hfont => ⟨_, rfl, fontAddr_toNat hfont, rfl, s.setI_onlyIAndPc _⟩

end Sys2Proof.Machine
end

section
/-! PROOFS of the drawing surface (spec/45_display.md R160, R161, R164, R166): a draw is one `drawPixel` per 1 bit of the
sprite, so it is described by the list of cells it visits, `spriteCells`. `spriteHits` counts in this list, a pixel ends
inverted when the list holds it an odd number of times, and the collision flag asks where a pixel was set on a visit. -/

namespace Sys2Proof.Machine

/-! The cells a sprite visits -/

/-- The cells the 1 bits of one sprite row fall on when the row is drawn from (x0, y), leftmost first. -/
def rowCells (w h x0 y : Nat) (row : Byte) : List (Nat × Nat) :=
  ((List.range 8).filter fun j => row.getLsbD (7 - j)).map fun j => ((x0 + j) % w, y % h)

/-- The cells the 1 bits of a sprite fall on, in the order in which a draw visits them (R161). -/
def spriteCells (w h x0 y0 : Nat) (rows : List Byte) : List (Nat × Nat) :=
  (List.range rows.length).flatMap fun i => rowCells w h x0 (y0 + i) (rows.getD i 0)

/-- Every cell of the list visited once, in order. -/
def drawCells (cells : List (Nat × Nat)) (acc : Grid × Bool) : Grid × Bool :=
  cells.foldl (fun a c => drawPixel c.1 c.2 a) acc

theorem drawCells_cons (c : Nat × Nat) (cells : List (Nat × Nat)) (acc : Grid × Bool) :
    drawCells (c :: cells) acc = drawCells cells (drawPixel c.1 c.2 acc) := rfl

theorem drawCells_append (cells cells' : List (Nat × Nat)) (acc : Grid × Bool) :
    drawCells (cells ++ cells') acc = drawCells cells' (drawCells cells acc) := List.foldl_append

theorem drawRow_eq_drawCells (w h x0 y0 i : Nat) (row : Byte) (acc : Grid × Bool) :
    drawRow w h x0 y0 i row acc = drawCells (rowCells w h x0 (y0 + i) row) acc := by
  rw [drawCells, rowCells, List.foldl_map, List.foldl_filter, drawRow]

theorem spriteCells_cons (w h x0 y0 : Nat) (row : Byte) (rows : List Byte) :
    spriteCells w h x0 y0 (row :: rows) = rowCells w h x0 y0 row ++ spriteCells w h x0 (y0 + 1) rows := by
  simp [spriteCells, List.range_succ_eq_map, List.flatMap_map, Nat.add_assoc, Nat.add_comm 1]

theorem drawRows_eq_drawCells (w h x0 y0 i : Nat) (rows : List Byte) (acc : Grid × Bool) :
    drawRows w h x0 y0 i rows acc = drawCells (spriteCells w h x0 (y0 + i) rows) acc := by
  induction rows generalizing i acc with
  | nil => rfl
  | cons row rows ih =>
    rw [drawRows, ih, drawRow_eq_drawCells, spriteCells_cons, drawCells_append, Nat.add_assoc]

theorem Grid.draw_eq_drawCells (g : Grid) (w h x0 y0 : Nat) (rows : List Byte) :
    Grid.draw g w h x0 y0 rows = drawCells (spriteCells w h x0 y0 rows) (g, false) :=
  drawRows_eq_drawCells w h x0 y0 0 rows (g, false)

theorem count_rowCells (w h x0 y : Nat) (row : Byte) (p : Nat × Nat) :
    (rowCells w h x0 y row).count p =
      (List.range 8).countP fun j => row.getLsbD (7 - j) && decide (p.1 = (x0 + j) % w ∧ p.2 = y % h) := by
  rw [rowCells, List.count, List.countP_map, List.countP_filter]
  refine List.countP_congr fun j _ => ?_
  simp only [Function.comp_apply, beq_iff_eq, Bool.and_eq_true, decide_eq_true_eq, and_comm, eq_comm (b := p),
    Prod.ext_iff]

/-- `spriteHits` counts how often a draw visits a cell. -/
theorem spriteHits_eq_count (w h x0 y0 : Nat) (rows : List Byte) (p : Nat × Nat) :
    spriteHits w h x0 y0 rows p.1 p.2 = (spriteCells w h x0 y0 rows).count p := by
  rw [spriteCells, List.count_flatMap, spriteHits]
  exact congrArg List.sum (List.map_congr_left fun i _ => (count_rowCells w h x0 (y0 + i) _ p).symm)

/-- The target cell is wrapped into the grid (R161). -/
theorem lt_of_mem_spriteCells {w h x0 y0 : Nat} {rows : List Byte} (hw : 1 ≤ w) (hh : 1 ≤ h) {p : Nat × Nat}
    (hp : p ∈ spriteCells w h x0 y0 rows) : p.1 < w ∧ p.2 < h := by
  simp only [spriteCells, rowCells, List.mem_flatMap, List.mem_map] at hp
  obtain ⟨i, -, j, -, rfl⟩ := hp
  exact ⟨Nat.mod_lt _ hw, Nat.mod_lt _ hh⟩

/-- A sprite of zeros visits no cell. -/
theorem spriteCells_zeros (w h x0 y0 : Nat) {rows : List Byte} (hz : ∀ b ∈ rows, b = 0) :
    spriteCells w h x0 y0 rows = [] := by
  induction rows generalizing y0 with
  | nil => rfl
  | cons row rows ih =>
    obtain ⟨rfl, hrest⟩ := List.forall_mem_cons.mp hz
    rw [spriteCells_cons, ih (y0 + 1) hrest]
    simp [rowCells]

/-! No cell is visited twice on a grid large enough (R161) -/

/-- Offsets below the modulus from one origin are told apart after the wrap. -/
theorem offset_inj_mod {m a i j : Nat} (hi : i < m) (hj : j < m) (h : (a + i) % m = (a + j) % m) : i = j :=
  Nat.ModEq.eq_of_lt_of_lt (Nat.ModEq.add_left_cancel' a h) hi hj

theorem rowCells_nodup {w : Nat} (h x0 y : Nat) (row : Byte) (hw : 8 ≤ w) : (rowCells w h x0 y row).Nodup := by
  refine List.Nodup.map_on (fun j hj k hk hjk => ?_) (List.nodup_range.filter _)
  have hj8 : j < 8 := List.mem_range.mp (List.mem_of_mem_filter hj)
  have hk8 : k < 8 := List.mem_range.mp (List.mem_of_mem_filter hk)
  exact offset_inj_mod (hj8.trans_le hw) (hk8.trans_le hw) (congrArg Prod.fst hjk)

theorem spriteCells_nodup {w h : Nat} (x0 y0 : Nat) {rows : List Byte} (hw : 8 ≤ w) (hr : rows.length ≤ h) :
    (spriteCells w h x0 y0 rows).Nodup := by
  refine List.nodup_flatMap.mpr ⟨fun i _ => rowCells_nodup h x0 (y0 + i) _ hw, ?_⟩
  refine List.Pairwise.imp_of_mem (fun {i k} hi hk hne p hpi hpk => hne ?_) List.nodup_range
  simp only [rowCells, List.mem_map] at hpi hpk
  obtain ⟨_, -, rfl⟩ := hpi
  obtain ⟨_, -, hp⟩ := hpk
  exact offset_inj_mod ((List.mem_range.mp hi).trans_le hr) ((List.mem_range.mp hk).trans_le hr)
    (congrArg Prod.snd hp).symm

/-! What visiting a list of cells does -/

/-- A pixel ends inverted when its cell is visited an odd number of times. -/
theorem get_drawCells {w h : Nat} {cells : List (Nat × Nat)} (hc : ∀ p ∈ cells, p.1 < w ∧ p.2 < h) (acc : Grid × Bool)
    (hg : Grid.shaped acc.1 w h = true) (p : Nat × Nat) :
    Grid.get (drawCells cells acc).1 p.1 p.2 = (Grid.get acc.1 p.1 p.2 ^^ decide (cells.count p % 2 = 1)) := by
  induction cells generalizing acc with
  | nil => simp [drawCells]
  | cons c cells ih =>
    obtain ⟨⟨hcx, hcy⟩, hcs⟩ := List.forall_mem_cons.mp hc
    have hrest := ih hcs (drawPixel c.1 c.2 acc) (drawPixel_shaped w h _ _ acc hg)
    rw [drawCells_cons, hrest, drawPixel, Grid.get_flip acc.1 w h _ _ _ _ hg hcx hcy, Bool.xor_assoc, List.count_cons]
    congr 1
    by_cases hp : c = p
    · subst hp
      rcases Nat.mod_two_eq_zero_or_one (cells.count c) with h0 | h1
      · simp [h0, Nat.add_mod]
      · simp [h1, Nat.add_mod]
    · have hp' : ¬ (p.1 = c.1 ∧ p.2 = c.2) := fun e => hp (Prod.ext e.1.symm e.2.symm)
      simp [hp, hp']

/-- Some visit of the list unsets the pixel `p`: the first visit if `p` is set in `g`, and else the second. -/
def UnsetsPixel (g : Grid) (cells : List (Nat × Nat)) (p : Nat × Nat) : Prop :=
  (1 ≤ cells.count p ∧ Grid.get g p.1 p.2 = true) ∨ 2 ≤ cells.count p

/-- A pixel is unset by the first visit of the list, or by a later one on the grid the first one leaves. -/
theorem unsetsPixel_cons {g : Grid} {w h : Nat} (hg : Grid.shaped g w h = true) {c : Nat × Nat} (hcx : c.1 < w)
    (hcy : c.2 < h) (cells : List (Nat × Nat)) (p : Nat × Nat) :
    UnsetsPixel g (c :: cells) p ↔
      (p = c ∧ Grid.get g p.1 p.2 = true) ∨ UnsetsPixel (Grid.flip g c.1 c.2) cells p := by
  unfold UnsetsPixel
  rw [Grid.get_flip g w h _ _ _ _ hg hcx hcy, List.count_cons]
  by_cases hp : p = c
  · subst hp
    generalize cells.count p = k
    cases Grid.get g p.1 p.2
    · have hk : 1 ≤ k ∨ 2 ≤ k ↔ 2 ≤ k + 1 := by omega
      simp [hk]
    · simp
  · have hp' : ¬ (p.1 = c.1 ∧ p.2 = c.2) := fun e => hp (Prod.ext e.1 e.2)
    simp [hp, hp', Ne.symm hp]

/-- The collision flag after a list of visits: set before, or some visit unset a pixel. -/
theorem drawCells_collided {w h : Nat} {cells : List (Nat × Nat)} (hc : ∀ p ∈ cells, p.1 < w ∧ p.2 < h)
    (acc : Grid × Bool) (hg : Grid.shaped acc.1 w h = true) :
    (drawCells cells acc).2 = true ↔ acc.2 = true ∨ ∃ p, UnsetsPixel acc.1 cells p := by
  induction cells generalizing acc with
  | nil => simp [drawCells, UnsetsPixel]
  | cons c cells ih =>
    obtain ⟨⟨hcx, hcy⟩, hcs⟩ := List.forall_mem_cons.mp hc
    have hrest := ih hcs (drawPixel c.1 c.2 acc) (drawPixel_shaped w h _ _ acc hg)
    rw [drawCells_cons, hrest]
    simp only [unsetsPixel_cons hg hcx hcy, exists_or, exists_eq_left, drawPixel, Bool.or_eq_true, or_assoc]

/-! What a draw does -/

section
variable {g : Grid} {w h : Nat} (x0 y0 : Nat) (rows : List Byte) (hg : Grid.shaped g w h = true) (hw : 1 ≤ w)
  (hh : 1 ≤ h)
include hg hw hh

theorem Grid.get_draw (x y : Nat) :
    Grid.get (Grid.draw g w h x0 y0 rows).1 x y =
      (Grid.get g x y ^^ decide (spriteHits w h x0 y0 rows x y % 2 = 1)) := by
  rw [Grid.draw_eq_drawCells, spriteHits_eq_count w h x0 y0 rows (x, y)]
  exact get_drawCells (fun _ => lt_of_mem_spriteCells hw hh) (g, false) hg (x, y)

theorem Grid.draw_collided :
    (Grid.draw g w h x0 y0 rows).2 = true ↔
      ∃ x y, (1 ≤ spriteHits w h x0 y0 rows x y ∧ Grid.get g x y = true) ∨ 2 ≤ spriteHits w h x0 y0 rows x y := by
  rw [Grid.draw_eq_drawCells, drawCells_collided (fun _ => lt_of_mem_spriteCells hw hh) (g, false) hg]
  simp only [UnsetsPixel, ← spriteHits_eq_count, Prod.exists, Bool.false_eq_true, false_or]

/-- R164's reading of the collision, where no pixel is reached twice: some pixel of the sprite was set. -/
theorem Grid.draw_collided_once (hone : ∀ x y, spriteHits w h x0 y0 rows x y ≤ 1) :
    (Grid.draw g w h x0 y0 rows).2 = true ↔ ∃ x y, spriteHits w h x0 y0 rows x y = 1 ∧ Grid.get g x y = true := by
  rw [Grid.draw_collided x0 y0 rows hg hw hh]
  refine exists₂_congr fun x y => ?_
  have hxy := hone x y
  rw [show (1 ≤ spriteHits w h x0 y0 rows x y) ↔ spriteHits w h x0 y0 rows x y = 1 by omega, or_iff_left (by omega)]

/-- The second of two equal draws collides where the sprite has a pixel that was clear at first (R164). -/
theorem Grid.draw_draw_collided_once (hone : ∀ x y, spriteHits w h x0 y0 rows x y ≤ 1) :
    (Grid.draw (Grid.draw g w h x0 y0 rows).1 w h x0 y0 rows).2 = true ↔
      ∃ x y, spriteHits w h x0 y0 rows x y = 1 ∧ Grid.get g x y = false := by
  rw [Grid.draw_collided_once x0 y0 rows (Grid.draw_shaped g w h x0 y0 rows hg) hw hh hone]
  refine exists₂_congr fun x y => and_congr_right fun hxy => ?_
  rw [Grid.get_draw x0 y0 rows hg hw hh, hxy]
  simp

end

/-- Two grids of one shape with the same pixels are equal. -/
theorem Grid.eq_of_get_eq {g g' : Grid} {w h : Nat} (hg : Grid.shaped g w h = true) (hg' : Grid.shaped g' w h = true)
    (hget : ∀ x y, Grid.get g x y = Grid.get g' x y) : g = g' := by
  rw [Grid.shaped_iff] at hg hg'
  obtain ⟨hlen, hrows⟩ := hg
  obtain ⟨hlen', hrows'⟩ := hg'
  refine List.ext_getElem (hlen.trans hlen'.symm) fun y hy hy' => ?_
  have hrow := hrows g[y] (List.getElem_mem hy)
  have hrow' := hrows' g'[y] (List.getElem_mem hy')
  refine List.ext_getElem (hrow.trans hrow'.symm) fun x hx hx' => ?_
  simpa [Grid.get, List.getElem?_eq_getElem, hy, hy', hx, hx'] using hget x y

/-- Drawing inverts each pixel the same number of times again (R164). -/
theorem Grid.draw_draw {g : Grid} {w h : Nat} (x0 y0 : Nat) (rows : List Byte) (hg : Grid.shaped g w h = true)
    (hw : 1 ≤ w) (hh : 1 ≤ h) : (Grid.draw (Grid.draw g w h x0 y0 rows).1 w h x0 y0 rows).1 = g := by
  have hshape := Grid.draw_shaped g w h x0 y0 rows hg
  refine Grid.eq_of_get_eq (Grid.draw_shaped _ w h x0 y0 rows hshape) hg fun x y => ?_
  rw [Grid.get_draw x0 y0 rows hshape hw hh, Grid.get_draw x0 y0 rows hg hw hh, Bool.xor_assoc, Bool.xor_self,
    Bool.xor_false]

theorem Grid.draw_zeros (g : Grid) (w h x0 y0 : Nat) {rows : List Byte} (hz : ∀ b ∈ rows, b = 0) :
    Grid.draw g w h x0 y0 rows = (g, false) := by
  rw [Grid.draw_eq_drawCells, spriteCells_zeros w h x0 y0 hz]
  rfl

/-! The obligations -/

/-- Settles O40: pixels and collision through the list of visited cells, which holds no cell twice when the grid is at
least as large as the sprite. -/
theorem drawIsXorWithCollision : Obligations.DrawIsXorWithCollision := by
  refine fun g w h x0 y0 rows hg hw hh => ⟨Grid.draw_shaped g w h x0 y0 rows hg, Grid.get_draw x0 y0 rows hg hw hh,
    Grid.draw_collided x0 y0 rows hg hw hh, fun hw8 hr x y => ?_⟩
  rw [spriteHits_eq_count w h x0 y0 rows (x, y)]
  exact List.nodup_iff_count_le_one.mp (spriteCells_nodup x0 y0 hw8 hr) (x, y)

/-- Settles O41: a pixel of the sprite is set before the first draw or before the second. -/
theorem drawTwiceRestoresTheGrid : Obligations.DrawTwiceRestoresTheGrid := by
  refine ⟨fun g w h x0 y0 rows hg hw hh => ⟨Grid.draw_draw x0 y0 rows hg hw hh, fun hone => ?_⟩,
    fun g w h x0 y0 rows => Grid.draw_zeros g w h x0 y0⟩
  have hfirst := Grid.draw_collided_once x0 y0 rows hg hw hh hone
  have hsecond := Grid.draw_draw_collided_once x0 y0 rows hg hw hh hone
  refine ⟨hfirst, hsecond, fun ⟨x, y, hxy⟩ => ⟨?_, fun hclear => ⟨?_, ?_⟩⟩⟩
  · cases hpixel : Grid.get g x y with
    | true => exact .inl (hfirst.mpr ⟨x, y, hxy, hpixel⟩)
    | false => exact .inr (hsecond.mpr ⟨x, y, hxy, hpixel⟩)
  · rw [← Bool.not_eq_true, hfirst]
    simp [hclear]
  · exact hsecond.mpr ⟨x, y, hxy, hclear x y⟩

end Sys2Proof.Machine
end

section
/-! PROOFS of the two display instructions (spec/45_display.md R162, R163, R165): both put a new grid in place and push
it as one frame, and DRW writes `VF` in between. -/

namespace Sys2Proof.Machine

/-- The shared end of CLS and DRW: the grid is replaced and pushed as the newest frame, and `pc` advances. -/
def State.showGrid (s : State) (g : Grid) : State := (s.setPx g).pushFrame.advance

theorem State.showGrid_frame (s : State) (g : Grid) :
    (s.showGrid g).px = g ∧ (s.showGrid g).frames = g :: s.frames ∧ (s.showGrid g).pc = s.pc + 2 ∧
      SameRegs s (s.showGrid g) ∧ (s.showGrid g).iReg = s.iReg ∧ SameMemory s (s.showGrid g) ∧
      SameControl s (s.showGrid g) := by
  simp [State.showGrid, SameRegs, SameMemory, SameControl, SameStack, SameTimers, SameKeys, SameRun, SameHost]

theorem Grid.clear_map_length (g : Grid) : (Grid.clear g).map List.length = g.map List.length := by
  simp [Grid.clear, Function.comp_def]

/-- DRW with its sprite inside memory, or with none (R163); the flag goes to a register, so it may as well be written
before the grid is shown. -/
theorem exec_drw_inside {x y n : Nibble} {s : State} (h : n.toNat = 0 ∨ s.iReg.toNat + n.toNat ≤ 4096) :
    let d := Grid.draw s.px s.cfg.width s.cfg.height (s.v x).toNat (s.v y).toNat
      ((List.range n.toNat).map fun k => s.byte (s.iReg.toNat + k))
    exec (.drw x y n) s = .next ((s.setFlag d.2).showGrid d.1) :=
  withRange_inside (.drw x y n) n.toNat s (s.drawSprite x y n) h

theorem State.setFlag_vf_toNat (s : State) (c : Bool) : ((s.setFlag c).v 15#4).toNat = if c then 1 else 0 := by
  rw [State.setFlag_v]
  cases c <;> rfl

/-- Settles O38: CLS shows the cleared grid. -/
theorem clsClearsAndPushesOneFrame : Obligations.ClsClearsAndPushesOneFrame :=
  ⟨decodeWord_encode (i := .cls) rfl, fun s =>
    ⟨s.showGrid (Grid.clear s.px), rfl, Grid.get_clear s.px, Grid.clear_map_length s.px,
      (s.showGrid_frame (Grid.clear s.px)).2⟩⟩

/-- Settles O39: in range DRW writes the flag and shows the drawn grid. -/
theorem drwDrawsTheSpriteBytes : Obligations.DrwDrawsTheSpriteBytes := by
  intro x y n s hin d
  obtain ⟨hpx, hframes, hpc, hregs, hI, hmem, hcontrol⟩ := (s.setFlag d.2).showGrid_frame d.1
  refine ⟨(s.setFlag d.2).showGrid d.1, exec_drw_inside (by omega), hpx, ?_, fun r hr => ?_, hframes, hpc, hI, hmem,
    hcontrol⟩
  · rw [hregs, State.setFlag_vf_toNat]
  · rw [hregs, State.setFlag_v]
    exact if_neg hr

end Sys2Proof.Machine
end

section
/-! PROOFS of the timer and key-wait instructions (spec/46_timers_keys.md R170 to R173): the two that load a register are
`writeResult`, and the two that write a timer share one frame. -/

namespace Sys2Proof.Machine

/-! The timers (R172, R173) -/

/-- Only the timers, with their divider, and `pc` may differ. -/
def OnlyTimersAndPc (s t : State) : Prop :=
  SameRegs s t ∧ t.iReg = s.iReg ∧ SameMemory s t ∧ SameDisplay s t ∧ SameStack s t ∧ SameKeys s t ∧ SameRun s t ∧
    SameHost s t ∧ t.randomCtr = s.randomCtr

/-- A write of both timers; a write of one is the case where the other keeps its value. -/
theorem State.writeTimers_onlyTimersAndPc (s : State) (dt st : Byte) :
    OnlyTimersAndPc s ((s.setDt dt).setSt st).advance :=
  have ⟨hregs, hI, hmem, hdisplay, hstack, _, hkeys, hrun, hhost, hrandom⟩ :=
    ((s.setDt dt).setSt st).setPc_onlyPc (s.pc + 2)
  ⟨hregs, hI, hmem, hdisplay, hstack, hkeys, hrun, hhost, hrandom⟩

/-! The key wait (R171) -/

/-- LD Vx, K with no new key. -/
theorem exec_ldVxK_noKey {s : State} (x : Nibble) (hk : s.keysNew = 0) :
    exec (.ldVxK x) s = .next (s.setRun .waitKey) :=
  if_pos hk

/-- LD Vx, K with a new key, in the tick that fetched it (D13). -/
theorem exec_ldVxK_newKey {s : State} (x : Nibble) (hk : s.keysNew ≠ 0) :
    exec (.ldVxK x) s = .next (s.writeResult x (lowestKey s.keysNew)) :=
  if_neg hk

/-! The obligations -/

/-- Settles O42: the read is `writeResult` of `DT`, and a write of one timer writes the other's old value back. -/
theorem timerRegisterTransfers : Obligations.TimerRegisterTransfers :=
  fun x s => ⟨⟨s.writeResult x s.dt, rfl, fun r => s.writeResult_v x r s.dt, (s.writeResult_frame x s.dt).2⟩,
    ⟨(s.setDt (s.v x)).advance, rfl, rfl, rfl, rfl, rfl, s.writeTimers_onlyTimersAndPc (s.v x) s.st⟩,
    ⟨(s.setSt (s.v x)).advance, rfl, rfl, rfl, rfl, rfl, s.writeTimers_onlyTimersAndPc s.dt (s.v x)⟩⟩

/-- Settles O43: a new key is loaded by `writeResult`, and without one only the run state moves. -/
theorem keyWaitCompletesOrWaits : Obligations.KeyWaitCompletesOrWaits := by
  refine fun x s => ⟨fun hk => ?_, exec_ldVxK_noKey x⟩
  obtain ⟨k, hlt, hset, hleast, hlowest⟩ := lowestKey_spec s.keysNew hk
  have hexec := exec_ldVxK_newKey x hk
  rw [hlowest] at hexec
  exact ⟨k, _, hlt, hset, hleast, hexec, fun r => s.writeResult_v x r _, (s.writeResult_frame x _).2⟩

end Sys2Proof.Machine
end

section
/-! PROOFS of the sample words of the decode vectors (spec/95_test_vectors.md V-DEC). -/

namespace Sys2Proof

/-- Settles O5: each legal word is the encoding of its instruction, and the last one is in R75's table. -/
theorem sampleWordsDecode : Obligations.SampleWordsDecode :=
  ⟨decodeWord_of_encode rfl rfl, decodeWord_of_encode rfl rfl, decodeWord_of_encode rfl rfl,
    decodeWord_of_encode rfl rfl, decodeWord_of_encode rfl rfl,
    (illegalWordsAreRejected 0x8AB8#16).1 ((illegalWord_iff_of_top8 rfl).2 (by decide))⟩

end Sys2Proof
end

section
/-! PROOFS of the fatal conditions (spec/60_exceptions.md R180 to R187): where each one is raised and with which report,
and that a halted core does no more than take its key events. -/

namespace Sys2Proof.Machine

/-- A raise is a halt with the condition's report, and changes nothing else (R106, R186, R187). -/
theorem State.raise_haltedWith {s : State} {c : Fatal} {pc : Word} {w : Option Word} (hpc : s.pc = pc) :
    HaltedWith (c.report pc w) s (s.raise c w) := hpc ▸ rfl

/-! The conditions of a handler -/

/-- CALL with no free entry (R182). -/
theorem exec_call_of_full {s : State} (nnn : Addr12) (h : s.sp.val = 16) :
    exec (.call nnn) s = .next (s.raise .stackOverflow (some (encode (.call nnn)))) :=
  if_pos (Fin.ext h)

/-- RET with no entry in use (R183). -/
theorem exec_ret_of_empty {s : State} (h : s.sp.val = 0) :
    exec .ret s = .next (s.raise .stackUnderflow (some (encode .ret))) :=
  if_pos (Fin.ext h)

/-- A guarded access that leaves memory halts with the report of R184 (R56, D20). -/
theorem withRange_halts (i : Instr) {len : Nat} {s : State} (done : State) (h0 : len ≠ 0)
    (h : 4096 < s.iReg.toNat + len) :
    ∃ t, withRange i len s done = .next t ∧
      HaltedWith ((Fatal.outOfBounds (max s.iReg.toNat 4096)).report s.pc (some (encode i))) s t :=
  ⟨_, withRange_outside i len s done h0 h, State.raise_haltedWith rfl⟩

/-- Settles O20: both handlers test `SP` first, and raise. -/
theorem stackFatalConditions : Obligations.StackFatalConditions := fun _ =>
  ⟨fun h nnn => ⟨_, exec_call_of_full nnn h, State.raise_haltedWith rfl⟩,
    fun h => ⟨_, exec_ret_of_empty h, State.raise_haltedWith rfl⟩⟩

/-! The conditions of the fetch and of the decoder -/

/-- A full tick whose word does not fit into memory at `pc` (R57, R184). -/
theorem step_fetch_outside {s : State} (h : FullTick s) (hpc : 4095 ≤ s.pc.toNat) :
    step s = .next ((beforeFetch s).raise (.outOfBounds (max s.pc.toNat 4096)) none) := by
  rw [step_fullTick h, fetchAndExecute_outside (by simpa using hpc), beforeFetch_pc]

/-- A full tick with a word at `pc` that the decoder rejects (R94, R181). -/
theorem step_illegal {s : State} {e : DecodeError} (h : FullTick s) (hpc : s.pc.toNat ≤ 4094)
    (hw : decodeWord (wordAtPc s) = .error e) :
    step s = .next ((beforeFetch s).raise (.decode e) (some (wordAtPc s))) := by
  rw [step_fullTick h, fetchAndExecute_illegal (e := e) (by simpa using hpc) (by simpa using hw), wordAtPc_beforeFetch]

/-- Settles O7: the decoder rejects the word, and its report goes into the raise. -/
theorem illegalWordHalts : Obligations.IllegalWordHalts := by
  intro s h hpc w illegal
  have hw : decodeWord w = .error (decodeErrorOf w) := (illegalWordsAreRejected w).1 illegal
  exact ⟨_, step_illegal h hpc hw, State.raise_haltedWith (beforeFetch_pc s)⟩

/-- Settles O37: the fetch checks its two bytes, and the four handlers their whole range, before anything moves. -/
theorem rangeFatalConditions : Obligations.RangeFatalConditions := by
  refine ⟨fun s h hpc => ⟨_, step_fetch_outside h hpc, State.raise_haltedWith (beforeFetch_pc s)⟩,
    fun x y n s => ⟨fun hn hr => ?_, fun hr => ?_, fun hr => ?_⟩⟩
  · exact withRange_halts (.drw x y n) _ (by omega) (by omega)
  · exact withRange_halts (.ldB x) _ (by omega) (by omega)
  · exact ⟨withRange_halts (.ldMemVx x) _ (by omega) (by omega),
      withRange_halts (.ldVxMem x) _ (by omega) (by omega)⟩

/-! The report of every halt of a full tick -/

/-- The table of R180 reads nothing that steps 1 and 2 write. -/
theorem reportHasItsFields_beforeFetch {s : State} {r : FaultReport} (h : ReportHasItsFields (beforeFetch s) r) :
    ReportHasItsFields s r := by
  have hI : (beforeFetch s).iReg = s.iReg := by simp [beforeFetch]
  simpa only [ReportHasItsFields, beforeFetch_pc, wordAtPc_beforeFetch, hI] using h

/-- A raise halts with a report that has its fields once the condition and the word give it them. -/
theorem State.raise_report {s : State} {c : Fatal} {w : Option Word} (h : ReportHasItsFields s (c.report s.pc w)) :
    ∃ r, ReportHasItsFields s r ∧ HaltedWith r s (s.raise c w) :=
  ⟨_, h, State.raise_haltedWith rfl⟩

/-- A handler that halts a running engine raised one of its three conditions, with the word at `pc` in the report
(R182 to R184, log 31). -/
theorem Effect.halt_report {s t : State} {i : Instr} (he : Effect s i t) (hrun : s.run = .running)
    (hpc : s.pc.toNat ≤ 4094) (hword : encode i = wordAtPc s) (ht : t.run = .halted) :
    ∃ r, ReportHasItsFields s r ∧ HaltedWith r s t := by
  cases he with
  | outOfRange => exact State.raise_report ⟨rfl, rfl, rfl, .inr ⟨hpc, congrArg some hword, rfl⟩⟩
  | overflow => exact State.raise_report ⟨rfl, congrArg some hword, rfl, rfl, rfl⟩
  | underflow => exact State.raise_report ⟨rfl, rfl, hword.symm, rfl, rfl, rfl⟩
  | _ => simp [hrun] at ht

/-- A full tick that ends halted raised a condition of R180 in the state before the fetch (R185, R186). -/
theorem step_halt_report {s t : State} (h : FullTick s) (hstep : step s = .next t) (ht : t.run = .halted) :
    ∃ r, ReportHasItsFields s r ∧ HaltedWith r (beforeFetch s) t := by
  obtain ⟨hrun, hs⟩ := h
  suffices hr : ∃ r, ReportHasItsFields (beforeFetch s) r ∧ HaltedWith r (beforeFetch s) t by
    obtain ⟨r, hfields, hhalt⟩ := hr
    exact ⟨r, reportHasItsFields_beforeFetch hfields, hhalt⟩
  cases step_effect hstep with
  | idle h | poll h | take h => simp [hrun] at h
  | stop _ hstop => simp [hs] at hstop
  | fetchFault _ hpc =>
    rw [← beforeFetch_pc s] at hpc ⊢
    exact State.raise_report ⟨rfl, rfl, rfl, .inl ⟨hpc, rfl, rfl⟩⟩
  | decodeFault _ hpc hw =>
    have hanswer := answers_decodeWord (wordAtPc (beforeFetch s))
    rw [hw] at hanswer
    obtain ⟨rfl, -⟩ := hanswer
    exact State.raise_report ⟨rfl, rfl, rfl, rfl, rfl⟩
  | execute _ hpc hw he =>
    obtain ⟨hword, -⟩ := encodeOfDecodeIsTheWord _ _ hw
    exact he.halt_report (by simpa using hrun) (by simpa using hpc) hword ht

/-! After the halt -/

/-- `n` deliveries change at most the two key buffers, and use `n` entries up (R91). -/
theorem State.deliver_iterate_eq (n : Nat) (s : State) :
    ∃ p r, State.deliver^[n] s = { s with bufPress := p, bufRelease := r, hostInputs := s.hostInputs.drop n } := by
  induction n generalizing s with
  | zero => exact ⟨s.bufPress, s.bufRelease, rfl⟩
  | succ n ih =>
    obtain ⟨p, r, hn⟩ := ih s.deliver
    obtain ⟨p', r', h⟩ := s.deliver_eq
    exact ⟨p, r, by rw [Function.iterate_succ_apply, hn, h, List.drop_tail]⟩

/-- The ticks of a halted core are deliveries (R103, D33). -/
theorem ticks_halted (n : Nat) {s : State} (h : s.run = .halted) : ticks n s = .next (State.deliver^[n] s) := by
  induction n generalizing s with
  | zero => rfl
  | succ n ih =>
    rw [ticks, step_idle (.inl h), Function.iterate_succ_apply]
    exact ih (by simpa using h)

/-- Settles O53: the halt is a raise with the fields of R180, and the ticks after it are deliveries. -/
theorem fatalConditionChangesNothingElse : Obligations.FatalConditionChangesNothingElse :=
  fun _ t h hstep ht => ⟨step_halt_report h hstep ht,
    fun inputs n => ⟨ticks_halted n ht, State.deliver_iterate_eq n { t with hostInputs := inputs }⟩⟩

end Sys2Proof.Machine
end

section
/-! PROOF that RET undoes CALL (spec/95_test_vectors.md S9, spec/90_conflicts.md C1). -/

namespace Sys2Proof.Machine

/-- Settles O19: the entry RET pops is the one entry CALL wrote. -/
theorem retAfterCallReturnsBehindTheCall : Obligations.RetAfterCallReturnsBehindTheCall := by
  intro nnn s hsp
  refine ⟨_, exec_call_of_notFull nnn hsp, fun u ⟨hspu, hstack⟩ => ?_⟩
  have hval : u.sp.val = s.sp.val + 1 := by rw [hspu]; exact State.push_sp_val (s.pc + 2) hsp
  refine ⟨_, exec_ret_of_nonempty (by omega), ?_, ?_⟩
  · simp [State.top_eq, hval, hstack]
  · exact Fin.ext ((State.drop_sp_val (by omega)).trans (by omega))

end Sys2Proof.Machine
end

section
/-! PROOFS about reset and the second load (spec/70_reset_and_hazards.md R210, R221, R222). -/

namespace Sys2Proof.Machine

/-- Settles O45: a load that fits takes of the state before it only the arguments and what lies outside the core. -/
theorem reloadIsAFullReset : Obligations.ReloadIsAFullReset := by
  refine fun glyphs rom s => ⟨hostLoad_tooLong glyphs rom s, fun hrom =>
    ⟨_, load_fits s.cfg glyphs rom hrom, rfl, rfl, rfl, fun s' hcfg => ?_⟩⟩
  rw [hostLoad_fits glyphs rom s' hrom, hcfg, State.reloadedAs]

/-- The canonical form lists nothing when every byte is the unlisted one (R27). -/
theorem Memory.eq_nil_of_read {m : Mem} (hm : Memory.wf m = true) (hread : ∀ a, Memory.read m a = resetByte a) :
    m = [] := by
  cases m with
  | nil => rfl
  | cons cell m =>
    obtain ⟨k, b⟩ := cell
    have hb : b = resetByte k := by simpa [Memory.read] using hread k
    simp [Memory.wf, hb] at hm

theorem resetByte_glyph {a : Nat} (h : a < 80) : resetByte a = conventionalGlyphs[a] := by
  simp only [resetByte, defaultConfig, Nat.zero_le, if_true, Nat.sub_zero]
  exact List.getD_eq_getElem glyphTable 0 h

/-- The default image is what unlisted memory reads as: the conventional glyphs at 0 to 79, and zeros (R37, log 8). -/
theorem read_loadImage_default (a : Nat) :
    Memory.read (loadImage defaultConfig conventionalGlyphs []) a = resetByte a := by
  by_cases h : a < 80
  · have hread := read_loadImage_glyph defaultConfig conventionalGlyphs [] (by decide) h
    simp only [defaultConfig, Nat.zero_add] at hread ⊢
    rw [hread, resetByte_glyph h]
  · rw [read_loadImage_other _ _ _ (by simp; omega) (by simp only [defaultConfig]; omega), resetByte_beyond (by omega)]

theorem loadImage_default : loadImage defaultConfig conventionalGlyphs [] = [] :=
  Memory.eq_nil_of_read (loadImage_wf _ _ _ (by decide) (by decide)) read_loadImage_default

/-- Settles O46: the default image needs no listed byte, so the loaded state is the reset state. -/
theorem resetIsTheLoadOfAnEmptyRom : Obligations.ResetIsTheLoadOfAnEmptyRom := by
  refine ⟨?_, rfl, rfl, resetByte_beyond (a := 512) (by decide)⟩
  rw [load_fits _ _ _ (by decide), loadImage_default]
  rfl

end Sys2Proof.Machine
end
